-- ==== Sys2Proof/Word.lean ====
section
/-! DEFINITION. The word types of the module and the sparse map that State's collections use. -/

namespace Sys2Proof

/-- A byte of memory. -/
abbrev Byte := BitVec 8

/-- A 32-bit word: scratchpad words, synchronisation objects, Signal Unit registers. -/
abbrev Word := BitVec 32

/-- A 32-byte record: fault records (R34), event records (R614), ring slots (R433). A byte at offset `o` is bits
`[8o+7 : 8o]`, so the record is little-endian as R4 asks. -/
abbrev Record := BitVec 256

/-- A collection indexed by a number, listed sparsely: keys strictly rising, and no entry that equals what an
unlisted key reads as. -/
abbrev SMap (α : Type) := List (Nat × α)

end Sys2Proof
end

