-- ==== Sys2Proof/Config.lean ====
section
/-! DEFINITION. What an implementation fixes and the manual leaves open: the fuse maps of a part, and the free values,
each an opaque constant that nothing can evaluate. -/

namespace Sys2Proof

/-- The fuse maps of Table 19-3. Keys: `badColumn` core ID, `d2dFailed` 2 × link + direction, `spareRows` 16 × (2 × unit +
1 for a Peat) + bank or macro (spare rows that the fuse map uses). -/
structure FuseArray where
  badCore : BitVec 1024 := 0
  badColumn : SMap (BitVec 6) := []
  badDecoder : BitVec 64 := 0
  spareRows : SMap Nat := []
  serdesBad : BitVec 8 := 0
  d2dFailed : SMap (List Nat) := []
  serial : BitVec 128 := 0
  macBase : BitVec 48 := 0
  stepping : BitVec 8 := 1
  firmwareKey : BitVec 512 := 0
  svn : Nat := 0
  deriving DecidableEq, Repr

namespace Config

/-- SHAKE256 with 64 bytes of output, a standard the manual names and does not define. [UNVERIFIED: log 14] -/
opaque shake256 : List Byte → BitVec 512

/-- ML-DSA-65 verification (FIPS 204): public key, 64-byte message digest, signature. [UNVERIFIED: log 14] -/
opaque mlDsaVerify : List Byte → List Byte → List Byte → Bool

/-- ML-DSA-65 signature by the module's identity key (R554). [UNVERIFIED: log 14] -/
opaque identitySign : List Byte → List Byte → List Byte

/-- The whole fuse array as bytes (R554); the manual does not lay it out. [UNVERIFIED: log 15] -/
opaque fuseArrayBytes : FuseArray → List Byte

/-- Does a MOD_RST_N pulse of 10 µs or more and less than 1 ms reset the module? (R538, R607 leave it open.) [UNVERIFIED: log 16] -/
opaque shortResetTakes : Nat → Bool

/-- DETAIL of a fault record: the manual says which facts some classes carry there and lays none of them out. The second
argument holds the facts. [UNVERIFIED: log 17] -/
opaque faultDetail : Nat → Nat → BitVec 128

/-- Weliaco's JEDEC manufacturer code in IDCODE (R609). [UNVERIFIED: log 18] -/
opaque jedecCode : BitVec 11

/-- Chassis ID and Port ID TLVs of a port's LLDPDU, from the port and its MAC address (R470 fixes neither), and Weliaco's
OUI. [UNVERIFIED: log 18] -/
opaque lldpIds : Nat → Nat → List Byte
/-- See the log. [UNVERIFIED: log 18] -/
opaque weliacoOui : BitVec 24

/-- RING_STATE body: 32 bytes that carry the sender's ring port states (bit 0 E broken, bit 1 W broken) and its bypass list;
Table 16-5 does not lay them out. [UNVERIFIED: log 19] -/
opaque ringStateBody : Nat → Nat → List Byte

/-- A free value of width `w`, drawn at counter value `n`: the manual says a value results and not which. [DESIGN CHOICE: log 7] -/
opaque freeBits (w : Nat) : Nat → BitVec w

/-- A free natural number, drawn at counter value `n`. [DESIGN CHOICE: log 7] -/
opaque freeNat : Nat → Nat

/-- MAC address of a port, from the fused MAC base (Tables 16-7, 19-3); the manual does not say how the six follow from it. [UNVERIFIED: log 36] -/
opaque portMac : BitVec 48 → Nat → BitVec 48

/-- What the flash holds when the part is delivered (R543), and the identity key and certificate of manufacture (R553). [UNVERIFIED: log 218] -/
opaque factoryFlash : List Byte
/-- See the log. [UNVERIFIED: log 218] -/
opaque factoryKey : List Byte
/-- See the log. [UNVERIFIED: log 218] -/
opaque factoryCertificate : List Byte

/-- The library entries (R213) that hold a patch routine, from the redirect map and entry table of the core firmware, whose layout
Table 19-5 does not give. [UNVERIFIED: log 259] -/
opaque patchMap : List Byte → BitVec 256

/-- QUANT tensor that holds the activation scale of a network stage of an air class; the manual does not say which tensor it is.
Stages: 0 samples, 1 priors, 2 to 4 EST L1 to L3, 5 stem, 6 mix, 7 combine, 8 to 10 T1 to T3, 11 H1, 12 to 14 SEP L1 to L3. [UNVERIFIED: log 229] -/
opaque actTensor : Nat → Nat → Nat

/-- The 64 input codes of a network from the 32 complex samples of its window, the CFO estimate in Hz and the offset of the window's
symbols from its first sample in T/16; a sample that has not arrived is `none`. The manual says what enters and not how. [UNVERIFIED: log 239] -/
opaque windowInput : Int → Int → List (Option (Int × Int)) → List Int

/-- Share of a stream in the combination when no stream's EST gain is other than zero: air class, streams, stream. [DESIGN CHOICE: log 244] -/
opaque shareWithoutGain : Nat → Nat → Nat → Nat

/-- A stored sample less the cancelled waveform: codes of the estimate, the waveform's phasor at the half symbols on either side of the sample,
how far it lies between them in T/16, CFO in Hz, sample number, sample. The
manual says what is subtracted and not in what arithmetic. [UNVERIFIED: log 243] -/
opaque cancelSample : List Int → List (Int × Int) → Nat → Int → Nat → Int × Int → Int × Int

/-- arg of a sum of products that is 0, in fixed point, from sample number and stream or 32 for the group. [DESIGN CHOICE: log 236] -/
opaque phaseOfZero : Nat → Nat → Int

/-- A metric of R90 or a correlation of R91 whose denominator is 0, in percent: channel, sample number. [DESIGN CHOICE: log 236] -/
opaque metricOfZero : Nat → Nat → Nat

/-- LLR of a symbol of which no stream has power, at the fallback grade: handle, coded bit. [DESIGN CHOICE: log 236] -/
opaque llrWithoutPower : Nat → Nat → Int

/-- Output of one filter-bank bin before its CINT16 narrowing: points N, hop, grid bin, and the folded samples. The manual gives the bank and not the twiddles nor the
narrowing of its two matrix products. [UNVERIFIED: log 231] -/
opaque dftOutput : Nat → Nat → Nat → List (Int × Int) → Int × Int

/-- A channel sample before saturation: width, sample number k, first hop and the outputs of each of its bins over the hops given. The
manual gives the rates and the alignment of the resampler and not its filter. [UNVERIFIED: log 231] -/
opaque channelOutput : Nat → Nat → Nat → List (List (Int × Int)) → Int × Int

/-- Noise floor of a channel before its first window, in mean power. [DESIGN CHOICE: log 237] -/
opaque firstNoiseFloor : Nat → Nat

/-- Place of a block result in its cluster's Peat, in 1,024 bytes: cluster, burst handle, block. The manual says that the result lies in Peat and
not where. [UNVERIFIED: log 250] -/
opaque resultPlace : Nat → Nat → Nat → Nat

/-- RSSI in 1/16 dBm from the power of each stream of the group with its gain removed, in 2^-32 of CINT16 units. [UNVERIFIED: log 235] -/
opaque rssiDbm : List Nat → Int

/-- Where in the ±1 % of R45 the steady frequency offset of a symbol of an emitted frame lies: channel, start in ns, symbol. [DESIGN CHOICE: log 260] -/
opaque symbolOffset : Nat → Nat → Nat → Nat

/-- Sequence number in SEQ_ID of a downlink eCPRI message: PC_ID, FRAME_ID, place among the frame's messages. The manual says that the
field holds a sequence number and not how it counts. [UNVERIFIED: log 261] -/
opaque iqSequence : Nat → Nat → Nat → BitVec 8

/-- Slot length in ns, less 1, under the reserved code of SLOT_LEN. [DESIGN CHOICE: log 30] -/
opaque reservedSlotLen : Nat

end Config

end Sys2Proof
end

