-- ==== Sys2Proof/Syntax.lean ====
section
/-! DEFINITION. The commands of the block: one constructor per row of spec/opcode_table.json, with the row's operands,
and the operand types. Operands carry what comes from outside the model: values the host or a network peer sends,
bytes read from host memory, and outcomes of physical tests and measurements. -/

namespace Sys2Proof

/-- A BAR access: a read, or a write of a value. -/
inductive BarAccess where
  | read
  | write (v : BitVec 64)
  deriving DecidableEq, Repr

/-- Outcomes of the tests and measurements of a start-up or a compute reset (Tables 19-2, 19-11). `railsIo` and
`railsCompute` are the RAIL_FAIL bits of rails out of tolerance at steps 3 and 4; `fwLost` lists (core, round, packet)
of firmware packets that did not arrive clean, round 0 being the multicast; `fwBadDigest` (core, round); `quarterFail` the
quarters that fail their test at a compute reset. [DESIGN CHOICE: log 6] -/
structure BootInputs where
  heronRamOk : Bool := true
  fuseReadOk : Bool := true
  railsIo : BitVec 6 := 0
  comparatorsOk : Bool := true
  railsMain : BitVec 6 := 0
  railsCompute : BitVec 4 := 0
  heronCheckerFail : Bool := false
  coreCheckerFail : List (BitVec 10) := []
  peatCheckerFail : List (BitVec 6) := []
  sliceCheckerFail : List (BitVec 6) := []
  decoderCheckerFail : List (BitVec 6) := []
  channelCheckerFail : List (BitVec 4) := []
  linkCheckerFail : List (BitVec 2) := []
  untrained : BitVec 16 := 0
  bistFail : List (BitVec 10) := []
  fwLost : List (BitVec 10 × BitVec 2 × BitVec 9) := []
  fwBadDigest : List (BitVec 10 × BitVec 2) := []
  selftestDefect : BitVec 6 := 0
  quarterFail : BitVec 4 := 0
  deriving DecidableEq, Repr

/-- Symbol errors that a read meets: (symbol or bit position, value added to it). -/
abbrev ReadErrors := List (Nat × Byte)

/-- What the race check finds for one command (R221): writer's tag and unit, granule address and distance in cc. -/
structure Race where
  unit : Nat := 0
  writerTag : BitVec 16 := 0
  writerUnit : Nat := 0
  granule : BitVec 32 := 0
  distance : Nat := 0
  deriving DecidableEq, Repr

/-- Issue of a command by a core. A job-state command is the one at the stream's program position; in the service state it
is `word`, a command of a firmware service stream, which the manual does not give. `held` and `cycle` are the cycle
counts of R197 and R219; `ecc`, `parity` and `races` are what the checkers of R183, R257 and R221 find, and `flips` the bits that have
flipped in the first X or Y word a SIG.XFER reads (R314). [DEDUCED: log 120] -/
structure Issue where
  core : BitVec 10
  word : BitVec 1024 := 0
  held : Nat := 0
  cycle : BitVec 32 := 0
  ecc : Bool := false
  parity : Bool := false
  races : List Race := []
  flips : List Nat := []
  deriving DecidableEq, Repr

/-- What a patch routine does, which the firmware's own code decides (R213, R214): bytes it writes in its core's scratchpad, in X and
in Y memory, MOV.GET and MOV.PUT commands it gives mover queue 3, and whether it uses the array. -/
structure PatchRun where
  spad : List (BitVec 19 × List Byte) := []
  x : List (BitVec 16 × List Byte) := []
  y : List (BitVec 16 × List Byte) := []
  moves : List (BitVec 1024) := []
  array : Bool := false
  deriving DecidableEq, Repr

/-- A received fabric packet (Table 16-4): the port it came on, whether its UDP checksum and VER are good, its header fields
and body. `poison` tells that READ_RESP or WRITE data left its source poisoned (Table 17-7). [DESIGN CHOICE: log 165] -/
structure FabricRx where
  port : BitVec 3 := 0
  good : Bool := true
  src : BitVec 6 := 0
  seq : BitVec 32 := 0
  ack : BitVec 32 := 0
  status : Byte := 0
  reset : Bool := false
  addr : BitVec 64 := 0
  reqId : BitVec 32 := 0
  body : List Byte := []
  poison : Bool := false
  deriving DecidableEq, Repr

/-- Issue of one slot of a Signal Unit bundle: the core, the bits flipped in the fetched bundle, in the first data word it
reads and in the second (positions of R492). -/
structure SuIssue where
  core : BitVec 10
  fetch : List Nat := []
  first : List Nat := []
  second : List Nat := []
  deriving DecidableEq, Repr

/-- What has left the module: interrupts, Ethernet frames without their FCS, fabric packets, JTAG outputs. [DESIGN CHOICE: log 204] -/
inductive Sent where
  | msix (vector : Nat)
  | frame (port : Nat) (bytes : List Byte)
  | fabric (port : Nat) (mac : Nat) (packet : List Byte) (poison : Bool)
  | tdo (bits : List Bool)
  deriving DecidableEq, Repr

/-- A channel sample that CHAN derives from words that read as poisoned (R509, R511): stream and sample number. [DESIGN CHOICE: log 6] -/
structure ChanPoison where
  channel : BitVec 16
  stream : BitVec 5 := 0
  sample : Nat := 0
  deriving DecidableEq, Repr

/-- What DETECT's estimators give for a channel where the manual names a value and no computation: the CFO estimate in Hz, of the preamble
or one hypothesis of the continuous search (R91, R92), the refinement of a sync position in T/16 and the SNR in 0.25 dB. [DESIGN CHOICE: log 6, 268] -/
structure DetEst where
  channel : BitVec 16
  cfo : Int := 0
  refine : Int := 0
  snr : Int := 0
  deriving DecidableEq, Repr

/-- Poison that RECV meets in what it reads for a burst: coded bits whose LLRs and payload data symbols whose T3 features derive from
poisoned data (R139, R511). [DESIGN CHOICE: log 6] -/
structure RecvBurst where
  handle : BitVec 32
  poison : List Nat := []
  features : List Nat := []
  deriving DecidableEq, Repr

/-- One ADAPT block (R79, R142 to R145): its reference time in ns, the training steps it runs, whether its work is the validation, and
whether masters or quantised weights read as poisoned. [DESIGN CHOICE: log 6] -/
structure AdaptBlock where
  airClass : Byte := 0
  group : Byte := 0
  refNs : Nat := 5000
  steps : Nat := 0
  poison : Bool := false
  validate : Bool := false
  deriving DecidableEq, Repr

/-- What fences a core at run time (R183, R257, R314): an uncorrectable error of command memory or of a Signal Unit's program memory, or
parity of the array. -/
inductive FenceCause where
  | cmdEcc | suEcc | arrayParity
  deriving DecidableEq, Repr

/-- Kinds of unit that a fence names (Table 21-3). -/
inductive FencedUnit where
  | core (cause : FenceCause)
  | decoder | peat | slice | channel
  deriving DecidableEq, Repr

/-- A happening of a core's matrix array; `parity` tells that it meets a parity error (R257). -/
structure ArrayEvent where
  core : BitVec 10
  parity : Bool := false
  deriving DecidableEq, Repr

/-- An uncorrectable error in a decoder's posterior RAM, or check-message RAM when `message`, that a pass meets (R170): the codeword of the
pass, the entry, how many iterations had run, and the bits in which the value read differs. -/
structure DecUpset where
  word : Nat := 0
  message : Bool := false
  entry : Nat := 0
  after : Nat := 0
  flips : BitVec 10 := 0
  deriving DecidableEq, Repr

/-- A Sluice frame descriptor (R517): first bin in 14 bits, width in bins, PROFILE, LEN_M1, air time of the first ramp
symbol, and the descriptor's poison. -/
structure SluiceDesc where
  channel : BitVec 16 := 0
  firstBin : BitVec 14 := 0
  width : Nat := 1
  profile : Nat := 0
  lenM1 : Nat := 0
  start : Nat := 0
  deriving DecidableEq, Repr

/-- What the Sluice meets when it checks a frame (R518, R524): samples that a fault on the job side changed or left out at the end,
poison of the descriptor or a sample, bucket words (bin, word of 8 buckets) and running sums that read uncorrectably, and errors
corrected there. -/
structure SluiceIn where
  changed : List (Nat × Int × Int) := []
  missing : Nat := 0
  poison : Bool := false
  bucketUe : List (BitVec 13 × BitVec 9) := []
  sumUe : List (BitVec 13) := []
  corrected : Nat := 0
  deriving DecidableEq, Repr

/-- An upset of a triplicated word (R495): the fuse shadows, or the register at a BAR 2 offset; the bits flipped in each copy, and
copies that no longer read. -/
structure TmrUpset where
  shadow : Bool := false
  off : BitVec 22 := 0
  flipA : Nat := 0
  flipB : Nat := 0
  flipC : Nat := 0
  bad : BitVec 3 := 0
  deriving DecidableEq, Repr

/-- A job-control or configuration command as it waits for its boundary (Tables 12-3, 15-5). -/
inductive JobCmd where
  | imageLoad (seqno : BitVec 16) (addr : BitVec 64) (image : List Byte)
  | jobStart (seqno : BitVec 16) (schedule : List (BitVec 128))
  | jobStop (seqno : BitVec 16)
  | channelSet (seqno : BitVec 16) (addr : BitVec 64) (table : List (BitVec 64))
  | paramSet (seqno d fh cw hold : BitVec 16) (detAddr : BitVec 64) (det : List (BitVec 64))
  | step (seqno : BitVec 16) (slot : BitVec 48) (leaves joins : List (BitVec 20)) (listAddr : BitVec 64)
  | adapt (opcode : BitVec 8) (seqno : BitVec 16) (airClass group : Byte)
  | unknown (opcode : BitVec 8) (seqno : BitVec 16)
  deriving DecidableEq, Repr

/-- A configuration command in CFGQ order (Table 15-5). -/
inductive CfgCmd where
  | sessionAdd (seqno : BitVec 16) (shortId : BitVec 32) (home headSel ulRing : Byte)
  | sessionModify (seqno : BitVec 16) (shortId : BitVec 32) (home headSel ulRing : Byte)
  | sessionRemove (seqno : BitVec 16) (shortId : BitVec 32)
  | timeSample (seqno : BitVec 16) (addr : BitVec 64) (block : List Byte)
  | unknown (opcode : BitVec 8) (seqno : BitVec 16)
  deriving DecidableEq, Repr

/-- The commands: one constructor per row of spec/opcode_table.json, in its order. [DESIGN CHOICE: log 208, 216] -/
inductive Instr where
  | powerUp (b : BootInputs)
  | modRstN (low : Bool) (held : Nat) (b : BootInputs)
  | perstN (asserted : Bool)
  | computeReset (flags : Byte) (b : BootInputs)
  | fwUpdate (addr : BitVec 64) (img : List Byte)
  | recoveryLoad (flags : Byte) (addr : BitVec 64) (img : List Byte) (b : BootInputs)
  | keyInstall (addr : BitVec 64) (block : List Byte)
  | keyRemove (addr : BitVec 64) (block : List Byte)
  | attest (addr : BitVec 64) (nonce : List Byte) (resp : BitVec 64)
  | identityRead (addr resp : BitVec 64)
  | imageLoad (seqno : BitVec 16) (addr : BitVec 64) (image : List Byte)
  | jobStart (seqno : BitVec 16) (schedule : List (BitVec 128))
  | jobRunning
  | jobStop (seqno : BitVec 16)
  | channelSet (seqno : BitVec 16) (addr : BitVec 64) (table : List (BitVec 64))
  | paramSet (seqno d fh cw hold : BitVec 16) (detAddr : BitVec 64) (det : List (BitVec 64))
  | step (seqno : BitVec 16) (slot : BitVec 48) (leaves joins : List (BitVec 20)) (listAddr : BitVec 64)
  | adaptEnable (seqno : BitVec 16) (airClass group : Byte)
  | adaptDisable (seqno : BitVec 16) (airClass group : Byte)
  | adaptResume (seqno : BitVec 16) (airClass group : Byte)
  | headRevert (seqno : BitVec 16) (airClass group : Byte)
  | headReset (seqno : BitVec 16) (airClass group : Byte)
  | jobFault
  | jobRestart
  | ingestClose (missing : BitVec 32)
  | chan (ins : List ChanPoison)
  | detect (evals hits : List DetEst)
  | recv (ins : List RecvBurst)
  | decode
  | deliver
  | statsCombine
  | combiningPass
  | adaptBlock (a : AdaptBlock)
  | phaseBarrierRelease
  | deadlineReached
  | processingBoundary (causes : BitVec 5)
  | counterFoldIdle
  | softHoldExpiry
  | rollbackWatchCheck (airClass group : Byte)
  | stallCheck
  | fence (kind : FencedUnit) (unit : BitVec 10)
  | decoderFence (cluster : BitVec 6)
  | decoderPass (cluster : BitVec 6)
  | decoderPassEnd (cluster : BitVec 6) (bad : List DecUpset) (corrected : Nat)
  | swapEngineServe (slice : BitVec 6)
  | swapInDone (slot : BitVec 16)
  | spillDone (slot : BitVec 16)
  | ctxPoison (slot : BitVec 16)
  | sessionAdd (seqno : BitVec 16) (shortId : BitVec 32) (home headSel ulRing : Byte)
  | sessionModify (seqno : BitVec 16) (shortId : BitVec 32) (home headSel ulRing : Byte)
  | sessionRemove (seqno : BitVec 16) (shortId : BitVec 32)
  | timeSample (seqno : BitVec 16) (addr : BitVec 64) (block : List Byte)
  | sampleTimeout
  | holdoverLimit
  | timingUnsafeClear
  | timeForceGo (v : BitVec 32)
  | stepMuteEnd
  | timeSnap (v : BitVec 32)
  | timeIncrWrite (v : BitVec 64)
  | ppsInEdge (rising : Bool)
  | ppsInLost
  | ppsOutPulse
  | ppsOutEnd
  | doorbell (ring : BitVec 5) (index : BitVec 16)
  | hostqEnable (ring : BitVec 5) (cfg : BitVec 32)
  | submissionFetch (ring : BitVec 3) (slot : BitVec 256) (buf : List Byte) (ecc poison : Bool)
  | hostRingPhase (ring : BitVec 3)
  | dlCommand (ring : BitVec 2) (desc : BitVec 256) (body : List Byte) (poison : Bool)
  | dlHoldExpiry
  | dlFrameHandover
  | countersDump (seqno : BitVec 16) (addr : BitVec 64) (len : BitVec 32)
  | faultLogDump (seqno : BitVec 16) (addr : BitVec 64) (len : BitVec 32)
  | traceDump (seqno : BitVec 16) (addr : BitVec 64) (len : BitVec 32)
  | ethTx (index : BitVec 16) (desc : BitVec 256) (frame : List Byte)
  | evqHeldWrite
  | coalesceExpiry (ring : BitVec 5)
  | bar4Access (offset : BitVec 28) (size : BitVec 8) (a : BarAccess) (errs : ReadErrors)
  | registerWrite (bar0 : Bool) (offset : BitVec 22) (size : BitVec 8) (a : BarAccess)
  | errClear (v : BitVec 32)
  | traceCtrlWrite (clusters : Bool) (v : BitVec 64)
  | guardMuteClear (v : BitVec 32)
  | pwrCapWrite (v : BitVec 32)
  | relinquish
  | take
  | modHeartbeat (corrected : Nat)
  | ecpriIqReceive (port : BitVec 3) (mac : BitVec 48) (msg : List Byte)
  | ecpriDelayRequest (port : BitVec 3) (mac : BitVec 48) (id : Byte)
  | hostFrameReceive (port : BitVec 3) (good : Bool) (frame : List Byte)
  | lldpReceive (port : BitVec 3) (tlv : Option (BitVec 48)) (frame : List Byte)
  | lldpSend (port : BitVec 3)
  | linkLoss (port : BitVec 3) (queued : Nat)
  | retrainTimeout (port : BitVec 3) (ok : BitVec 8)
  | linkTrained (port : BitVec 3) (ok : BitVec 8)
  | laneTrainingAttempt (port : BitVec 3) (ok : BitVec 8)
  | fabricTransit (port : BitVec 3) (packet : List Byte)
  | readReq (x : FabricRx)
  | readResp (x : FabricRx)
  | write (x : FabricRx)
  | nack (x : FabricRx)
  | combine (x : FabricRx)
  | seqSync (x : FabricRx)
  | ackOnly (x : FabricRx)
  | flowAckSend (node : BitVec 6)
  | retxTimeout (node : BitVec 6)
  | keepalive (port : BitVec 3) (good : Bool)
  | keepaliveSend
  | keepaliveMiss (port : BitVec 3) (lockLost : Bool)
  | ringState (port : BitVec 3) (good : Bool) (src : BitVec 6) (brokenE brokenW : Bool) (bypass : BitVec 32) (packet : List Byte)
  | pairHbSend
  | pairHb (good : Bool) (src : BitVec 6) (slot : BitVec 64) (role flags : Byte)
  | pairTakeover
  | causewayClose
  | causewayOpen
  | bypassForce (asserted : Bool)
  | sluiceCheck (i : SluiceIn)
  | sluiceSecond
  | preloadEnd
  | selftestFrame (defect : Bool)
  | clockMonitor (alarm : Bool)
  | thermTrip
  | sysclkLost
  | heronLockstep
  | moduleStop (cause : BitVec 3)
  | railAlarm (rail : BitVec 4) (ports : BitVec 6) (queued : List Nat)
  | quarterLost (q : BitVec 2)
  | tmrCompare (upsets : List TmrUpset)
  | scrubRead (storage : BitVec 11) (first second : ReadErrors)
  | scrubWriteback (storage : BitVec 11)
  | unitScrub (kind : BitVec 2) (unit : BitVec 16) (word : BitVec 16) (flips : List Nat)
  | laneSpared (link : BitVec 2) (dir : BitVec 1) (lane : BitVec 10) (errors : Nat)
  | powerCapControl (estimate : BitVec 16)
  | thermalSensorRead (q : BitVec 2) (readings : List Int)
  | vddcTargetStep (q : BitVec 2) (raise : Bool)
  | vddcChangedClear
  | jtagBypass (bits : List Bool) (b : BootInputs)
  | jtagSamplePreload (levels chain : List Bool) (b : BootInputs)
  | jtagExtest (levels chain : List Bool)
  | jtagIdcode (b : BootInputs)
  | seqNop (i : Issue)
  | seqEnd (i : Issue)
  | streamComplete (core : BitVec 10)
  | seqRepeat (i : Issue)
  | seqCallPatch (i : Issue) (patch : PatchRun)
  | seqWait (i : Issue)
  | seqBarrier (i : Issue)
  | barrierRelease (scope : BitVec 2) (inst : BitVec 6) (num : BitVec 4)
  | seqMark (i : Issue)
  | rtNop (i : Issue)
  | rtFill (i : Issue)
  | rtCopy (i : Issue)
  | rtSoftmaxRows (i : Issue)
  | rtDeferFix (i : Issue)
  | rtQscale (i : Issue)
  | rtRescale (i : Issue)
  | rtCrc24 (i : Issue)
  | rtCrc32Check (i : Issue)
  | rtHcrc (i : Issue)
  | rtScramble (i : Issue)
  | rtLdpcEnc (i : Issue)
  | rtGfskMod (i : Issue)
  | rtLabelBits (i : Issue)
  | rtHeadQuant (i : Issue)
  | rtCkptSave (i : Issue)
  | rtCkptRestore (i : Issue)
  | rtBistSpad (i : Issue)
  | rtBistArray (i : Issue)
  | rtCheckerTest (i : Issue) (fails : Bool)
  | arrLoad (i : Issue)
  | arrStream (i : Issue)
  | arrStreamT (i : Issue)
  | arrClear (i : Issue)
  | arraySwap (core : ArrayEvent)
  | arrStarve (core : BitVec 10) (parity : Bool)
  | drainStart (core : ArrayEvent)
  | vecChain (i : Issue)
  | vecSideadd (i : Issue)
  | descFill (i : Issue)
  | descCopy (i : Issue)
  | descChain (i : Issue)
  | descCompare (i : Issue)
  | descPatternWrite (i : Issue)
  | descPatternCheck (i : Issue)
  | movGet (i : Issue)
  | movPut (i : Issue)
  | movMcast (i : Issue)
  | movRingFeed (i : Issue)
  | ringFillStart (core : BitVec 10) (ring : BitVec 3)
  | ringFillCommit (core : BitVec 10) (ring : BitVec 3)
  | moverPacketIssue (core : BitVec 10) (queue : BitVec 4) (validBad : Bool)
  | moverReadResponse (core : BitVec 10) (queue : BitVec 4) (errs : ReadErrors) (host : List Byte)
  | moverWriteAck (core : BitVec 10) (queue : BitVec 4)
  | sigStart (i : Issue)
  | sigXfer (i : Issue)
  | sigIrq (i : Issue)
  | suInterruptTaken (core : BitVec 10)
  | suTimeout (core : BitVec 10)
  | synSet (i : Issue)
  | synAdd (i : Issue)
  | synSignal (i : Issue)
  | signalArrival (source : BitVec 10)
  | signalDone (core : BitVec 10)
  | synRingCommit (i : Issue)
  | synRingRelease (i : Issue)
  | suNop (i : SuIssue)
  | suLdx (i : SuIssue)
  | suLdy (i : SuIssue)
  | suLdxy (i : SuIssue)
  | suStx (i : SuIssue)
  | suSty (i : SuIssue)
  | suLdx16 (i : SuIssue)
  | suLdy16 (i : SuIssue)
  | suStx16 (i : SuIssue)
  | suLdc (i : SuIssue)
  | suLdxc (i : SuIssue)
  | suMac (i : SuIssue)
  | suMsu (i : SuIssue)
  | suMac2 (i : SuIssue)
  | suCmac (i : SuIssue)
  | suCmacc (i : SuIssue)
  | suCmac2 (i : SuIssue)
  | suCmacd (i : SuIssue)
  | suMpy (i : SuIssue)
  | suCmpy (i : SuIssue)
  | suCmag (i : SuIssue)
  | suAdd (i : SuIssue)
  | suSub (i : SuIssue)
  | suAddw (i : SuIssue)
  | suAdd2 (i : SuIssue)
  | suSub2 (i : SuIssue)
  | suAnd (i : SuIssue)
  | suOr (i : SuIssue)
  | suXor (i : SuIssue)
  | suShr (i : SuIssue)
  | suShl (i : SuIssue)
  | suMin (i : SuIssue)
  | suMax (i : SuIssue)
  | suAbs (i : SuIssue)
  | suNeg (i : SuIssue)
  | suCmp (i : SuIssue)
  | suMovi (i : SuIssue)
  | suMova (i : SuIssue)
  | suMovd (i : SuIssue)
  | suRnd (i : SuIssue)
  | suRndc (i : SuIssue)
  | suAccld (i : SuIssue)
  | suClracc (i : SuIssue)
  | suLoop (i : SuIssue)
  | suLoopd (i : SuIssue)
  | suBra (i : SuIssue)
  | suRti (i : SuIssue)
  | suHalt (i : SuIssue)
  | vauxLost
  | timeUnitTick (n : Nat)
  | pcieLinkTrained (gen : BitVec 3) (width : BitVec 5)
  | heronEcc
  | lpddr6Refresh (channel : BitVec 4)
  | flashProgramDone (ok : Bool)
  | dutySumRecomputeDone (bin : BitVec 13)
  deriving DecidableEq, Repr

end Sys2Proof
end

