-- ==== Sys2Proof/Decode.lean ====
section
/-! DEFINITION. Command words: spec/opcode_table.json gives no row a bit (every `fields` is empty), so no word spells a command. -/

namespace Sys2Proof

/-- The command that `nbits` bits `w` spell by the table: none, since no row of the table gives bits. [DESIGN CHOICE: log 2] -/
def decodeTableWord (_nbits _w : Nat) : Option Instr := none

end Sys2Proof
end

