-- ==== Sys2Proof/Machine/Classes.lean ====
section
/-! DEFINITION. Class codes of every counter, event and fault (R589, Table 21-7), and the unit codes of fault
records (R590). -/

namespace Sys2Proof.Machine.Cls

def COMPLETION : Nat := 0x001
def STEP_DONE : Nat := 0x002
def SLOT_REPORT : Nat := 0x003
def JOB_RUNNING : Nat := 0x010
def JOB_FAULT : Nat := 0x011
def JOB_RESTARTED : Nat := 0x012
def JOB_CONFIG_INVALID : Nat := 0x013
def JOB_NO_MAPPING : Nat := 0x014
def IMAGE_REJECT : Nat := 0x015
def CHANNEL_REMOVED : Nat := 0x016
def JOB_STOP_DISCARD : Nat := 0x017
def ACK_SUPPRESSED : Nat := 0x018
def SLOT_SKIPPED : Nat := 0x019
def STEP_MISSING : Nat := 0x01A
def NOT_IN_BATCH : Nat := 0x01B
def REPLAY_END : Nat := 0x01C
def REPLAY_DIVERGED : Nat := 0x01D
def MODULE_READY : Nat := 0x01E
def HERON_MBX_DONE : Nat := 0x01F
def PROFILE_MISMATCH : Nat := 0x020
def HDR_CRC_FAIL : Nat := 0x021
def HDR_VERSION : Nat := 0x022
def UNKNOWN_SESSION : Nat := 0x023
def SESSION_BUSY : Nat := 0x024
def CHAN_SAT : Nat := 0x025
def GAIN_CLIP : Nat := 0x026
def DET_ABANDON : Nat := 0x027
def COLLISION_OVERFLOW : Nat := 0x028
def SEP_STORE_FULL : Nat := 0x029
def SEP_REPROCESS_CAP : Nat := 0x02A
def DUP_SUPPRESSED : Nat := 0x02B
def UL_RING_FULL : Nat := 0x02C
def UL_DROP : Nat := 0x02D
def ACK_BUSY : Nat := 0x02E
def DL_CRC_FAIL : Nat := 0x02F
def HOME_UNREACHABLE : Nat := 0x030
def COMBINE_LATE : Nat := 0x031
def COMBINE_OVERFLOW : Nat := 0x032
def COMBINE_LOST : Nat := 0x033
def DEC_ITER_LIMIT : Nat := 0x034
def SOFT_MISMATCH : Nat := 0x035
def SOFT_EVICT : Nat := 0x036
def SOFT_POISON : Nat := 0x037
def DEC_QUEUE_FULL : Nat := 0x038
def HDR_POISON : Nat := 0x039
def COMBINE_BAD : Nat := 0x03A
def COMBINE_MISMATCH : Nat := 0x03B
def HEAD_SEL_RANGE : Nat := 0x040
def ADAPT_PENDING_FULL : Nat := 0x041
def ADAPT_POISON_SKIP : Nat := 0x042
def HEAD_REJECT : Nat := 0x043
def HEAD_PROMOTE : Nat := 0x044
def HEAD_ROLLBACK : Nat := 0x045
def HEAD_ADAPT_SUSPENDED : Nat := 0x046
def DEGENERATE_RANGE : Nat := 0x047
def SCALE_ALARM : Nat := 0x048
def ISSUE_HOLD : Nat := 0x050
def ACC_SAT : Nat := 0x051
def DRAIN_SAT : Nat := 0x052
def SU_ACC_SAT : Nat := 0x053
def MCAST_DROP : Nat := 0x054
def FW_CORE_FENCED : Nat := 0x055
def RECORD_REPAIR : Nat := 0x060
def SESSION_RECORD_LOST : Nat := 0x061
def SESSION_REMOVED : Nat := 0x062
def SESSION_UNMIRRORED : Nat := 0x063
def CTX_SPILL : Nat := 0x064
def CTX_FORCED_SPILL : Nat := 0x065
def CTX_COLD_FULL : Nat := 0x066
def CTX_LATE : Nat := 0x067
def CTX_POISON : Nat := 0x068
def CTX_POISON_DISCARD : Nat := 0x069
def TIME_INCR_RANGE : Nat := 0x070
def TIME_SAMPLE_BAD : Nat := 0x071
def TIME_SAMPLE_STALE : Nat := 0x072
def TIME_JUMP_REFUSED : Nat := 0x073
def TIME_STATE : Nat := 0x074
def TIME_STEPPED : Nat := 0x075
def TIME_STEP_DISCARD : Nat := 0x076
def PPS_IN_EDGE : Nat := 0x077
def PCIE_DEGRADED : Nat := 0x080
def RING_CONFIG_INVALID : Nat := 0x081
def DOORBELL_RANGE : Nat := 0x082
def DOORBELL_DISABLED : Nat := 0x083
def HOST_RING_PHASE : Nat := 0x084
def EVENT_DROP : Nat := 0x085
def BAR4_CLOSED : Nat := 0x086
def LOCKED_WRITE : Nat := 0x087
def MBX_BUSY : Nat := 0x088
def BAR_ACCESS_SIZE : Nat := 0x089
def LINK_DEGRADED : Nat := 0x090
def LINK_DOWN : Nat := 0x091
def ETH_TX_DOWN : Nat := 0x092
def ETH_RX_FILTERED : Nat := 0x093
def ETH_RX_TOOLONG : Nat := 0x094
def ETH_RX_DROP : Nat := 0x095
def FH_MISSING : Nat := 0x096
def FH_LATE : Nat := 0x097
def FH_EARLY : Nat := 0x098
def FH_DUP : Nat := 0x099
def FH_UNKNOWN_PC : Nat := 0x09A
def FH_FORMAT : Nat := 0x09B
def FH_CAPACITY : Nat := 0x09C
def FABRIC_RX_BAD : Nat := 0x09D
def FABRIC_MISMATCH : Nat := 0x09E
def FABRIC_DUP_NODE : Nat := 0x09F
def PAIR_TAKEOVER : Nat := 0x0A0
def PAIR_NO_TAKEOVER : Nat := 0x0A1
def PAIR_DUAL_ACTIVE : Nat := 0x0A2
def DL_STANDBY : Nat := 0x0A3
def TMR_CORRECT : Nat := 0x0B0
def REPAIR_NO_SPARE : Nat := 0x0B1
def CHECKER_FAIL : Nat := 0x0B2
def SCRUB_BEHIND : Nat := 0x0B3
def LANE_SPARED : Nat := 0x0B4
def CE_SPAD : Nat := 0x0B5
def CE_PEAT : Nat := 0x0B6
def CE_NOC : Nat := 0x0B7
def CE_LPDDR : Nat := 0x0B8
def CE_CMD : Nat := 0x0B9
def CE_SU : Nat := 0x0BA
def CE_CTX : Nat := 0x0BB
def CE_DEC : Nat := 0x0BC
def CE_HERON : Nat := 0x0BD
def CE_GUARD : Nat := 0x0BE
def DL_GUARD : Nat := 0x0C0
def DL_MUTED : Nat := 0x0C1
def DL_POISON : Nat := 0x0C2
def GUARD_CONFIG_INVALID : Nat := 0x0C3
def RAIL_FAIL : Nat := 0x0C4
def PWR_CAP_UNMET : Nat := 0x0C5
def THERM_THROTTLE : Nat := 0x0C6
def ADDR_UNMAPPED : Nat := 0x1000
def FENCED_ACCESS : Nat := 0x1001
def REMOTE_FAIL : Nat := 0x1002
def MEM_UE : Nat := 0x1003
def SCRUB_UE : Nat := 0x1004
def VALID_UE : Nat := 0x1005
def DESC_ECC : Nat := 0x1006
def GUARD_UE : Nat := 0x1007
def RACE : Nat := 0x1008
def DEC_TAKEOVER : Nat := 0x1010
def ILLEGAL_CMD : Nat := 0x1020
def MISALIGNED : Nat := 0x1021
def MODE : Nat := 0x1022
def ROUTINE_ABSENT : Nat := 0x1023
def ARR_STARVE : Nat := 0x1024
def SU_ILLEGAL : Nat := 0x1025
def SU_TIMEOUT : Nat := 0x1026
def RING_ERROR : Nat := 0x1027
def SYNC_STALL : Nat := 0x1028
def RING_STALL : Nat := 0x1029
def WEIGHT_POISON : Nat := 0x102A
def SIDE_POISON : Nat := 0x102B
def JOB_LOAD_POISON : Nat := 0x102C
def CMD_ECC : Nat := 0x1030
def SU_ECC : Nat := 0x1031
def ARRAY_PARITY : Nat := 0x1032
def QUARTER_LOST : Nat := 0x1040
def GUARD_VIOLATION : Nat := 0x1050
def GUARD_CLOCK : Nat := 0x1051
def GUARD_SELFTEST_FAIL : Nat := 0x1052
def HERON_LOCKSTEP : Nat := 0x1060
def HERON_ECC : Nat := 0x1061
def SYSCLK_LOST : Nat := 0x1062
def TMR_FAIL : Nat := 0x1063
def THERM_TRIP : Nat := 0x1070

end Sys2Proof.Machine.Cls

namespace Sys2Proof.Machine.UnitCode

def sequencer : Nat := 0
def array : Nat := 1
def vector : Nat := 2
def signalUnit : Nat := 3
def mover : Nat := 4
def clusterController : Nat := 5
def graphDecoder : Nat := 6
def peat : Nat := 7
def contextSlice : Nat := 8
def lpddr6 : Nat := 9
def onDieNetwork : Nat := 10
def dieToDieLink : Nat := 11
def quarterSupervisor : Nat := 12
def heron : Nat := 13
def sluice : Nat := 14
def timeUnit : Nat := 15
def pcie : Nat := 16
def ethernet : Nat := 17
def fabric : Nat := 18

end Sys2Proof.Machine.UnitCode
end

