-- ==== Sys2Proof/Machine/RegTable.lean ====
section
/-! DEFINITION. The set-up registers of BAR 2 as a table: every register of Tables 13-1, 15-3, 16-7, 16-8, 18-3,
19-7, 19-13, 20-4, 21-2, 21-3, 21-4, 21-6, 21-8 and 21-9 with its fields, access codes (R9) and reset values. -/

namespace Sys2Proof.Machine

/-- Access code of a field (R9). -/
inductive Acc where
  | rw | ro | wc | wo | rwl
  deriving DecidableEq, Repr

/-- A field: bits `[lo+len-1 : lo]` of its register. `lim` is the range JOB_START judges (R580), if the table gives one. -/
structure Fld where
  lo : Nat
  len : Nat
  acc : Acc
  reset : Nat := 0
  lim : Option (Nat × Nat) := none
  deriving DecidableEq, Repr

/-- `count` registers of `size` bytes (4 or 8) at `base`, `base + stride`, … . -/
structure RegGroup where
  base : Nat
  stride : Nat := 8
  count : Nat := 1
  size : Nat := 4
  flds : List Fld
  deriving DecidableEq, Repr

/-- MOD block (Table 21-2). -/
def modRegs : List RegGroup := [
  { base := 0x000000, flds := [⟨0, 16, .ro, 0x1F3A, none⟩, ⟨16, 16, .ro, 0x6400, none⟩] },
  { base := 0x000004, flds := [⟨0, 8, .ro, 1, none⟩] },
  { base := 0x000008, size := 8, flds := [⟨0, 64, .ro, 0, none⟩] },
  { base := 0x000010, size := 8, flds := [⟨0, 64, .ro, 0, none⟩] },
  { base := 0x000018, flds := [⟨0, 4, .ro, 0, none⟩, ⟨4, 4, .ro, 0, none⟩] },
  { base := 0x000020, flds := [⟨0, 32, .ro, 0, none⟩] },
  { base := 0x000028, size := 8, flds := [⟨0, 64, .rw, 0, none⟩] }]

/-- HERON block (Table 19-7). -/
def heronRegs : List RegGroup := [
  { base := 0x010000, flds := [⟨0, 8, .rw, 0, none⟩, ⟨8, 8, .rw, 0, none⟩] },
  { base := 0x010008, size := 8, flds := [⟨0, 64, .rw, 0, none⟩] },
  { base := 0x010010, flds := [⟨0, 32, .rw, 0, none⟩] },
  { base := 0x010018, flds := [⟨0, 1, .wo, 0, none⟩] },
  { base := 0x010020, flds := [⟨0, 17, .ro, 0, none⟩] },
  { base := 0x010028, flds := [⟨0, 12, .ro, 0, none⟩] },
  { base := 0x010030, flds := [⟨0, 32, .ro, 0, none⟩] },
  { base := 0x010038, flds := [⟨0, 4, .ro, 0, none⟩] }]

/-- FUSE block (Table 21-3): every field RO. -/
def fuseRegs : List RegGroup := [
  { base := 0x020000, flds := [⟨0, 19, .ro, 0, none⟩] },
  { base := 0x020008, flds := [⟨0, 7, .ro, 0, none⟩] },
  { base := 0x020010, flds := [⟨0, 8, .ro, 0, none⟩] },
  { base := 0x020018, size := 8, flds := [⟨0, 64, .ro, 0, none⟩] },
  { base := 0x020020, size := 8, flds := [⟨0, 64, .ro, 0, none⟩] },
  { base := 0x020028, count := 4, flds := [⟨0, 29, .ro, 0, none⟩] },
  { base := 0x020100, count := 16, size := 8, flds := [⟨0, 64, .ro, 0, none⟩] },
  { base := 0x021000, count := 128, size := 8, flds := [⟨0, 64, .ro, 0, none⟩] },
  { base := 0x021400, count := 8, size := 8, flds := [⟨0, 64, .ro, 0, none⟩] }]

/-- MEM block (Table 21-4): every field RO. -/
def memRegs : List RegGroup := [
  { base := 0x030000, flds := [⟨0, 32, .ro, 0, none⟩] },
  { base := 0x030100, count := 16, size := 8, flds := [⟨0, 64, .ro, 0, none⟩] },
  { base := 0x030300, flds := [⟨0, 25, .ro, 0, none⟩] },
  { base := 0x030400, count := 256, size := 8, flds := [⟨0, 48, .ro, 0, none⟩] }]

/-- ETH block (Table 16-7). -/
def ethRegs : List RegGroup := [
  { base := 0x040000, flds := [⟨0, 2, .rwl, 1, none⟩] },
  { base := 0x040004, flds := [⟨0, 1, .rwl, 1, none⟩, ⟨1, 1, .rwl, 1, none⟩] },
  { base := 0x040008, flds := [⟨0, 24, .ro, 0, none⟩] },
  { base := 0x040010, count := 6, size := 8, flds := [⟨0, 48, .rwl, 0, none⟩] },
  { base := 0x040040, stride := 4, count := 6, flds := [⟨0, 16, .rwl, 0, none⟩, ⟨16, 16, .rwl, 0, none⟩] },
  { base := 0x040060, flds := [⟨0, 1, .rwl, 0, none⟩, ⟨1, 12, .rwl, 0, none⟩, ⟨13, 3, .rwl, 0, none⟩] },
  { base := 0x040064, flds := [⟨0, 1, .rwl, 1, none⟩, ⟨1, 1, .rwl, 0, none⟩] },
  { base := 0x040100, stride := 16, count := 8, size := 8, flds := [⟨0, 48, .rwl, 0, none⟩] },
  { base := 0x040108, stride := 16, count := 8, size := 8,
    flds := [⟨0, 1, .rwl, 0, none⟩, ⟨1, 3, .rwl, 0, none⟩, ⟨8, 8, .rwl, 0, none⟩, ⟨16, 32, .rwl, 0, none⟩] }]

/-- TIME block (Table 13-1). -/
def timeRegs : List RegGroup := [
  { base := 0x050000, flds := [⟨0, 1, .rw, 0, none⟩, ⟨1, 1, .rwl, 0, none⟩, ⟨2, 1, .rw, 0, none⟩, ⟨3, 1, .rwl, 0, none⟩] },
  { base := 0x050008, size := 8, flds := [⟨0, 40, .rw, 0x0200000000, none⟩] },
  { base := 0x050010, flds := [⟨0, 20, .rwl, 1000, some (50, 1000000)⟩] },
  { base := 0x050014, flds := [⟨0, 17, .rwl, 4, some (1, 86400)⟩] },
  { base := 0x050018, flds := [⟨0, 5, .ro, 16, none⟩, ⟨5, 1, .wc, 0, none⟩, ⟨6, 1, .wc, 0, none⟩, ⟨8, 8, .ro, 0, none⟩] },
  { base := 0x050020, flds := [⟨0, 1, .wo, 0, none⟩] },
  { base := 0x050028, size := 8, flds := [⟨0, 64, .ro, 0, none⟩] },
  { base := 0x050030, flds := [⟨0, 32, .ro, 0, none⟩] },
  { base := 0x050038, size := 8, flds := [⟨0, 64, .rw, 0, none⟩] },
  { base := 0x050040, flds := [⟨0, 1, .wo, 0, none⟩] },
  { base := 0x050048, flds := [⟨0, 29, .rwl, 100000000, some (1000, 500000000)⟩] },
  { base := 0x05004C, flds := [⟨0, 32, .rwl, 0, none⟩] },
  { base := 0x050050, size := 8, flds := [⟨0, 64, .ro, 0, none⟩] },
  { base := 0x050058, flds := [⟨0, 32, .ro, 0, none⟩] },
  { base := 0x050060, flds := [⟨0, 32, .ro, 0, none⟩] }]

/-- GUARD block (Table 18-3). -/
def guardRegs : List RegGroup := [
  { base := 0x060000, flds := [⟨0, 1, .rwl, 0, none⟩] },
  { base := 0x060008, flds := [⟨0, 8, .ro, 0x22, none⟩] },
  { base := 0x060010, flds := [⟨0, 1, .wo, 0, none⟩] },
  { base := 0x060018, flds := [⟨0, 21, .ro, 0, none⟩] },
  { base := 0x060020, size := 8, flds := [⟨0, 36, .ro, 0, none⟩] },
  { base := 0x060100, stride := 16, count := 16, size := 8,
    flds := [⟨0, 13, .rwl, 0, none⟩, ⟨16, 13, .rwl, 0, none⟩, ⟨31, 1, .rwl, 0, none⟩, ⟨32, 16, .rwl, 0, none⟩, ⟨48, 10, .rwl, 0, none⟩] },
  { base := 0x060108, stride := 16, count := 16, size := 8,
    flds := [⟨0, 20, .rwl, 0, none⟩, ⟨32, 20, .rwl, 0xFFFFF, none⟩] },
  { base := 0x060200, stride := 4, count := 16, flds := [⟨0, 20, .ro, 0, none⟩] }]

/-- HOSTQ block (Table 15-3 and HOSTQ_DIAG_WINDOW, R435). -/
def hostqRegs : List RegGroup := [
  { base := 0x070000, stride := 0x20, count := 18, size := 8, flds := [⟨0, 64, .rwl, 0, none⟩] },
  { base := 0x070008, stride := 0x20, count := 18,
    flds := [⟨0, 5, .rwl, 6, none⟩, ⟨5, 1, .rwl, 0, none⟩, ⟨8, 6, .rwl, 0, none⟩, ⟨16, 16, .rwl, 0, none⟩] },
  { base := 0x070010, stride := 0x20, count := 18, size := 8, flds := [⟨0, 64, .rwl, 0, none⟩] },
  { base := 0x070018, stride := 0x20, count := 18, flds := [⟨0, 4, .rwl, 11, none⟩] },
  { base := 0x070400, size := 8, flds := [⟨28, 7, .rwl, 0, none⟩] }]

/-- JOB block (Tables 21-6 and 20-4). -/
def jobRegs : List RegGroup := [
  { base := 0x080000,
    flds := [⟨0, 1, .rwl, 0, none⟩, ⟨1, 1, .rwl, 0, none⟩, ⟨2, 1, .rwl, 0, none⟩, ⟨3, 1, .rwl, 0, none⟩,
             ⟨4, 4, .rwl, 0, none⟩, ⟨8, 1, .rwl, 0, none⟩] },
  { base := 0x080008, flds := [⟨0, 1, .ro, 0, none⟩] },
  { base := 0x080010, size := 8, flds := [⟨0, 64, .rwl, 0, none⟩] },
  { base := 0x080018, flds := [⟨0, 32, .rwl, 0, none⟩] },
  { base := 0x08001C, flds := [⟨0, 32, .ro, 0, none⟩] },
  { base := 0x080020, flds := [⟨0, 2, .rwl, 1, some (0, 2)⟩, ⟨2, 1, .rwl, 0, none⟩] },
  { base := 0x080028, flds := [⟨0, 16, .rwl, 700, none⟩, ⟨16, 16, .rwl, 100, none⟩] },
  { base := 0x08002C, flds := [⟨0, 16, .rwl, 560, none⟩, ⟨16, 10, .rwl, 10, none⟩] },
  { base := 0x080030, size := 8, flds := [⟨0, 50, .ro, 0, none⟩] },
  { base := 0x080100, count := 12, size := 8,
    flds := [⟨0, 8, .rwl, 60, some (30, 95)⟩, ⟨8, 8, .rwl, 6, some (0, 24)⟩, ⟨16, 8, .rwl, 4, some (2, 8)⟩,
             ⟨24, 8, .rwl, 75, some (50, 95)⟩, ⟨32, 8, .rwl, 65, some (40, 95)⟩] }]

/-- PWR block (Table 19-13). -/
def pwrRegs : List RegGroup := [
  { base := 0x090000, flds := [⟨0, 2, .rw, 0, none⟩] },
  { base := 0x090008, flds := [⟨0, 17, .ro, 0, none⟩] },
  { base := 0x090010, flds := [⟨0, 32, .ro, 0, none⟩] },
  { base := 0x090018, flds := [⟨0, 15, .ro, 0, none⟩] },
  { base := 0x090020, flds := [⟨0, 8, .rwl, 105, some (85, 105)⟩] },
  { base := 0x090028, count := 4, flds := [⟨0, 10, .ro, 750, none⟩] },
  { base := 0x090048, flds := [⟨0, 2, .ro, 0, none⟩] }]

/-- ERR block (Table 21-8). -/
def errRegs : List RegGroup := [
  { base := 0x0A0000, flds := [⟨0, 1, .wo, 0, none⟩] },
  { base := 0x0A0008, flds := [⟨0, 29, .ro, 0, none⟩] },
  { base := 0x0A0010, count := 2, size := 8, flds := [⟨0, 64, .ro, 0, none⟩] },
  { base := 0x0A1000, count := 512, size := 8, flds := [⟨0, 64, .ro, 0, none⟩] },
  { base := 0x0A3000, count := 256, size := 8, flds := [⟨0, 64, .ro, 0, none⟩] }]

/-- FABRIC block (Table 16-8). The 32 bytes of FABRIC_RING_ORDER are taken as eight 32-bit registers. -/
def fabricRegs : List RegGroup := [
  { base := 0x0B0000, flds := [⟨0, 6, .rwl, 0, none⟩, ⟨6, 1, .rwl, 0, none⟩, ⟨8, 8, .rwl, 0, none⟩] },
  { base := 0x0B0008, flds := [⟨0, 16, .rwl, 49800, none⟩] },
  { base := 0x0B0010, size := 8, flds := [⟨0, 64, .rwl, 0, none⟩] },
  { base := 0x0B0018, flds := [⟨0, 1, .rwl, 0, none⟩] },
  { base := 0x0B001C, flds := [⟨0, 1, .wo, 0, none⟩, ⟨1, 1, .wo, 0, none⟩] },
  { base := 0x0B0020, flds := [⟨0, 16, .ro, 0, none⟩] },
  { base := 0x0B0040, stride := 4, count := 8,
    flds := [⟨0, 8, .rwl, 0xFF, none⟩, ⟨8, 8, .rwl, 0xFF, none⟩, ⟨16, 8, .rwl, 0xFF, none⟩, ⟨24, 8, .rwl, 0xFF, none⟩] },
  { base := 0x0B0080, count := 64, size := 8, flds := [⟨0, 48, .rwl, 0, none⟩, ⟨48, 3, .rwl, 0, none⟩, ⟨63, 1, .rwl, 0, none⟩] },
  { base := 0x0B0280, size := 8, flds := [⟨0, 64, .ro, 3, none⟩] },
  { base := 0x0B0288, flds := [⟨0, 1, .ro, 0, none⟩] }]

/-- TRACE block (Table 21-9). -/
def traceRegs : List RegGroup := [
  { base := 0x0C0000, flds := [⟨0, 1, .rw, 0, none⟩, ⟨1, 1, .rw, 0, none⟩, ⟨2, 1, .rw, 0, none⟩] },
  { base := 0x0C0008, size := 8, flds := [⟨0, 64, .rw, 0xFFFFFFFFFFFFFFFF, none⟩] },
  { base := 0x0C0010, size := 8, flds := [⟨0, 64, .ro, 0, none⟩] },
  { base := 0x0C0018, flds := [⟨0, 21, .ro, 0, none⟩] }]

/-- The groups of the block that BAR 2 offset bits [21:16] select (R577, Table 21-1). -/
def blockRegs (block : Nat) : List RegGroup :=
  match block with
  | 0 => modRegs | 1 => heronRegs | 2 => fuseRegs | 3 => memRegs | 4 => ethRegs | 5 => timeRegs
  | 6 => guardRegs | 7 => hostqRegs | 8 => jobRegs | 9 => pwrRegs | 10 => errRegs | 11 => fabricRegs
  | 12 => traceRegs | _ => []

/-- Does the group hold the register that contains byte offset `x`? Then that register's own offset. -/
def RegGroup.regAt (g : RegGroup) (x : Nat) : Option Nat :=
  if x < g.base then none
  else
    let i := (x - g.base) / g.stride
    let o := g.base + i * g.stride
    if i < g.count ∧ x < o + g.size then some o else none

/-- The register that holds byte offset `x` of BAR 2: its own offset, size in bytes and fields; `none` for a reserved
offset (R577, R10). -/
def findReg (x : Nat) : Option (Nat × Nat × List Fld) :=
  (blockRegs (x / 0x10000)).findSome? fun g => (g.regAt x).map fun o => (o, g.size, g.flds)

/-- The value a register has after power-up or full reset, from its fields' reset values (R581). -/
def regReset (off : Nat) : Nat :=
  match findReg off with
  | none => 0
  | some (_, _, fs) => fs.foldl (fun a f => a + f.reset * 2 ^ f.lo) 0

end Sys2Proof.Machine
end

