-- ==== Sys2Proof/Machine/State.lean ====
section
/-! DEFINITION. The state of the Imbin module, as plain data: every register, memory, queue, counter, mode and pin the
spec gives it, at the values of power-up (Table 19-1), and the queue of waiting commands. -/

namespace Sys2Proof.Machine

/-- Reasons a step could stop. No command of this block has one: every row of the table has an effect the spec
gives. The constructor stands for a command word that the block does not have; nothing raises it, which is safe. [DESIGN CHOICE: log 13] -/
inductive Fault where
  | noSuchCommand
  deriving DecidableEq, Repr

/-- `notModelled` is answered only by an arm of `exec` whose command has no meaning yet. Safe: the machine stops. [DESIGN CHOICE: log 13] -/
inductive Refusal where
  | notModelled (mnemonic : String)
  deriving DecidableEq, Repr

/-- One host ring: the configuration latched at ENABLE (R435) and the positions (R433, R434, R439, R450, R452). -/
structure HostRing where
  enabled : Bool := false
  base : Nat := 0
  log2 : Nat := 6
  vector : Nat := 0
  coalesce : Nat := 0
  bufBase : Nat := 0
  rxLog2 : Nat := 11
  modPos : Nat := 0
  phase : Bool := true
  hostPos : Nat := 0
  stopped : Bool := false
  seqno : BitVec 16 := 0
  unsigSince : Option Nat := none
  waitSince : Option Nat := none
  deriving DecidableEq, Repr

/-- An entry that waits for EVQ (R448): `completion` entries wait outside the 1,024 places. [DEDUCED: log 28] -/
structure EvEntry where
  completion : Bool := false
  kind : Nat := 0
  cls : Nat := 0
  record : Record := 0
  deriving DecidableEq, Repr

/-- How the three copies of a triplicated word stand (R495): copies B and C as differences from copy A, and the copies
that no longer read. -/
structure TmrWord where
  xorB : Nat := 0
  xorC : Nat := 0
  bad : BitVec 3 := 0
  deriving DecidableEq, Repr

/-- The set-up registers: value written to each register (key: BAR 2 offset), the buffered low half of each block and
the latched high half of the last low-half read (R579), and the copies of triplicated words. [DEDUCED: log 195] -/
structure Regs where
  val : SMap Nat := []
  lowBuf : SMap (Option (Nat × Nat)) := []
  readLatch : Option (Nat × Nat) := none
  readData : Nat := 0
  readPoisoned : Bool := false
  tmr : SMap TmrWord := []
  deriving DecidableEq, Repr

/-- Fences in force: cause 0 none, 1 fuse, 2 start-up test or firmware broadcast, 3 run time (Table 21-3), and the
quarters released, lost, lost at some time since the last full reset, and counted as lost before a compute reset lifted the fences
that made them so (R582). [DEDUCED: log 40] -/
structure Fences where
  core : SMap Nat := []
  decoder : SMap Nat := []
  peat : SMap Nat := []
  slice : SMap Nat := []
  channel : SMap Nat := []
  released : BitVec 4 := 0
  lost : BitVec 4 := 0
  everLost : BitVec 4 := 0
  countedLost : BitVec 4 := 0
  deriving DecidableEq, Repr

/-- Trace buffer bookkeeping (R594, R595); the records themselves lie in the trace region of LPDDR6. -/
structure Trace where
  ctrl : BitVec 3 := 0
  clusters : BitVec 64 := BitVec.allOnes 64
  written : Nat := 0
  lost : Nat := 0
  head : Nat := 0
  count : Nat := 0
  coreLost : SMap Nat := []
  deriving DecidableEq, Repr

/-- The part of the state that every unit reaches: air time, memories with their poison and valid marks, counters, the
fault log, the rings and EVQ, set-up registers, fences, trace, what has left the module, and the counter from which
free values are drawn. [DESIGN CHOICE: log 7] -/
structure Sys where
  air : BitVec 96 := 0
  copies : SMap Int := []
  mem : List Host.Cell := []
  poison : SMap Bool := []
  granuleState : SMap Nat := []
  valid : SMap Bool := []
  counters : SMap Nat := []
  unfolded : SMap Nat := []
  satTotal : Nat := 0
  unfTotal : Nat := 0
  anyFault : Bool := false
  logKept : List Record := []
  logRing : List Record := []
  rings : SMap HostRing := []
  held : List EvEntry := []
  dropped : Nat := 0
  dropFirst : Nat := 0
  msixTable : SMap (BitVec 32) := []
  msixPending : BitVec 64 := 0
  regs : Regs := {}
  fences : Fences := {}
  trace : Trace := {}
  jobFault : Option Record := none
  weightRanges : List (Nat × Nat) := []
  weightPoison : Bool := false
  headCache : SMap (List (BitVec 256 × Bool)) := []
  sent : List Sent := []
  seed : Nat := 0
  deriving DecidableEq, Repr

/-- Heron, its boot and firmware state, mailbox, secure store and fuses (ch. 19). `mbxStarted` is the command that a write of GO has
started and Heron has not run yet, `patches` marks the library entries that the firmware
last broadcast serves from patch RAM (R213). [DEDUCED: log 9] -/
structure Heron where
  powered : Bool := true
  stage : Nat := 0
  recovery : Bool := false
  recoveryReason : Nat := 0
  running : List Byte := []
  fwVersion : BitVec 32 := 0
  fwDigest : BitVec 512 := 0
  flash : List Byte := []
  flashJob : Option (List Byte) := none
  fuses : FuseArray := {}
  shadow : FuseArray := {}
  shadowTmr : TmrWord := {}
  shadowReloaded : Bool := false
  mbxStatus : Nat := 0
  mbxReason : Nat := 0
  mbxBusy : Bool := false
  mbxCmd : Nat := 0
  mbxStarted : Nat := 0
  keys : SMap (List Byte) := []
  keyEpoch : BitVec 32 := 0
  identityKey : List Byte := []
  identityCert : List Byte := []
  stopCause : Nat := 0
  moduleStop : Bool := false
  heartbeat : BitVec 32 := 0
  received : SMap (BitVec 448) := []
  loaded : SMap Bool := []
  patches : BitVec 256 := 0
  spares : SMap Nat := []
  pcieUp : Bool := false
  pcieGen : Nat := 0
  pcieWidth : Nat := 0
  inReset : Bool := false
  deriving DecidableEq, Repr

/-- Power and thermal control (R558 to R562). -/
structure Power where
  estimate : Nat := 0
  capUnmet : Bool := false
  capRemoval : Nat := 0
  exceededSince : Option Nat := none
  thermRemoval : SMap Nat := []
  thermSince : SMap Nat := []
  reading : SMap Int := []
  vddc : SMap Nat := []
  vddcSince : SMap Nat := []
  vddcChanged : Bool := false
  mainReq : Bool := false
  mainGood : Bool := false
  lastAttempt : SMap Nat := []
  deriving DecidableEq, Repr

/-- A row of the field-repair list (R502, Table 21-4). -/
structure RepairRow where
  unit : Nat := 0
  peat : Bool := false
  bank : Nat := 0
  row : Nat := 0
  applied : Bool := false
  noSpare : Bool := false
  hits : Nat := 0
  deriving DecidableEq, Repr

/-- Scrubbers, repair queues and repair (ch. 17). Storage key: LPDDR6 channel n is n, Peat macro m of cluster g is
16 + 16g + m. A repair queue lists the address of a protected word, the word as it was stored at the read, and as corrected.
`scrubStart` holds the start of the pass plus 1; `scrubLate` that SCRUB_BEHIND was raised in this pass. -/
structure Storage where
  repairQueue : SMap (List (Nat × List Byte × List Byte)) := []
  scrubPos : SMap Nat := []
  scrubStart : SMap Nat := []
  scrubPasses : SMap Nat := []
  scrubLate : SMap Bool := []
  scrubBehind : SMap Bool := []
  corrected : SMap Nat := []
  rowHits : SMap Nat := []
  fieldRepair : List RepairRow := []
  trained : BitVec 16 := 0
  refreshUntil : SMap Nat := []
  deriving DecidableEq, Repr

/-- A downlink frame that the Sluice has passed (R518, R522): its bins and span, and for a framed one the radio unit, the
lowest stream of its group and the FRAME_ID. -/
structure PassedFrame where
  firstBin : Nat := 0
  bins : Nat := 0
  start : Nat := 0
  finish : Nat := 0
  channel : BitVec 16 := 0
  unit : Option Nat := none
  stream : Nat := 0
  frameId : Nat := 0
  cancelled : Bool := false
  deriving DecidableEq, Repr

/-- The Sluice (ch. 18). Buckets: key bin × 3600 + second. -/
structure Sluice where
  released : Bool := false
  accum : Nat := 0
  second : Nat := 0
  seconds : Nat := 0
  buckets : SMap Nat := []
  advance : SMap Nat := []
  sums : SMap Nat := []
  blocked : SMap Bool := []
  preloadActive : Bool := false
  muteViolation : Bool := false
  muteClock : Bool := false
  muteSelftest : Bool := false
  lastChannel : BitVec 16 := 0
  lastCheck : Nat := 0
  lastViolation : Bool := false
  runs : BitVec 32 := 0
  nextKind : Nat := 0
  failed : Bool := false
  lastRun : Nat := 0
  masterOff : Bool := false
  passed : List PassedFrame := []
  deriving DecidableEq, Repr

/-- State of the time servo (Table 13-3), in the coding of TIME_STATUS; `lapsed` is its state 4. -/
inductive Servo where
  | free | acquiring | locked | holdover | lapsed
  deriving DecidableEq, Repr

/-- The time unit and servo (ch. 13); the counter itself is `Sys.air`, the increment is register TIME_INCR. -/
structure TimeUnit where
  servo : Servo := .free
  timeValid : Bool := false
  timingUnsafe : Bool := true
  jumpRefused : Bool := false
  ppsLost : Bool := false
  stepGen : BitVec 8 := 0
  nowNs : BitVec 64 := 0
  nowFrac : BitVec 32 := 0
  forcePending : Bool := false
  ppsStamp : BitVec 64 := 0
  theta : BitVec 32 := 0
  holdoverStart : Nat := 0
  lockedAt : Nat := 0
  lockCount : Nat := 0
  overRun : Nat := 0
  refused : Bool := false
  sampleSecond : Nat := 0
  sampleCount : Nat := 0
  lastAccepted : Nat := 0
  freqEstimate : BitVec 40 := 0x0200000000
  stepMuteEnd : Option Nat := none
  ppsOutEnd : Option Nat := none
  ppsLast : Option Nat := none
  todSecond : Option Nat := none
  deriving DecidableEq, Repr

/-- Levels of the module's pins (ch. 22): true is high. [DEDUCED: log 9] -/
structure Pins where
  faultN : Bool := false
  thermTripN : Bool := true
  bypassState : Bool := true
  ppsOut : Bool := false
  smbAlertN : Bool := true
  mainEn : Bool := false
  modRstN : Bool := true
  perstN : Bool := false
  bypassForce : Bool := false
  deriving DecidableEq, Repr

/-- JTAG (R609): the instruction selected (`none` before one is), the bypass register, and the boundary-scan chain as last
captured and as last preloaded. -/
inductive JtagInstr where
  | bypass | samplePreload | extest | idcode
  deriving DecidableEq, Repr

structure Jtag where
  instr : Option JtagInstr := none
  bypass : Bool := false
  captured : List Bool := []
  latched : List Bool := []
  deriving DecidableEq, Repr

/-- Job states (Table 12-1), in the order DB_STATUS codes them. -/
inductive JobState where
  | noImage | ready | starting | running | stopping | faulted
  deriving DecidableEq, Repr

/-- The phase of the slot in progress that runs or is due next (Table 03-2): `ingest` waits for the close of ingest,
`combine` for the combining pass, `done` for the processing boundary. -/
inductive Phase where
  | ingest | chan | detect | recv | decode | deliver | combine | done
  deriving DecidableEq, Repr

/-- A configured channel (Table 15-6). -/
structure Channel where
  id : BitVec 16 := 0
  airClass : Nat := 0
  streams : BitVec 32 := 0
  deriving DecidableEq, Repr

/-- Detection parameters of one air class (Table 03-6). -/
structure DetParams where
  thresh : Nat := 60
  snrMin : Nat := 6
  hold : Nat := 4
  sync : Nat := 75
  syncBusy : Nat := 65
  deriving DecidableEq, Repr

/-- A STEP in progress or waiting (R384 to R386), with the DETAIL of its STEP_DONE. -/
structure StepCmd where
  seqno : BitVec 16 := 0
  slot : Nat := 0
  detail : Nat := 0
  leaves : List (BitVec 20) := []
  joins : List (BitVec 20) := []
  listAddr : BitVec 64 := 0
  deriving DecidableEq, Repr

/-- The job, its slot in progress and the deadline monitor (ch. 12, 20). `mode` is JOB_MODE as the last job start took it (R223, R294, R384). Phase lists are indexed 0 CHAN to 4 DELIVER,
5 combining pass. -/
structure Job where
  state : JobState := .noImage
  mode : Nat := 0
  lock : Bool := false
  firstSlot : Nat := 0
  qset : Nat := 0
  lastSlot : Nat := 0
  slot : Nat := 0
  phase : Phase := .ingest
  phaseFrom : Nat := 0
  worked : Bool := false
  channels : List Channel := []
  deadline : Nat := 700
  deadlineNext : Nat := 700
  fhMaxDelay : Nat := 100
  combineWait : Nat := 560
  softHold : Nat := 10
  det : SMap DetParams := []
  fallback : Bool := false
  fallbackAt : Nat := 7
  suppressed : Bool := false
  deadlinePassed : Bool := false
  measured : SMap Nat := []
  refs : SMap Nat := []
  counts : SMap Nat := []
  prevCounts : SMap Nat := []
  combCounts : SMap Nat := []
  prevComb : SMap Nat := []
  startSeq : Option (BitVec 16) := none
  prevRatio : Nat := 256
  projMax : Nat := 0
  closed : Nat := 0
  acked : Nat := 0
  withheld : Nat := 0
  afterSkip : Bool := false
  noAckBefore : Nat := 0
  restartAt : Option Nat := none
  replayed : Bool := false
  stopQuiet : Bool := false
  queue : List JobCmd := []
  cfgQueue : List CfgCmd := []
  batch : List (BitVec 20) := []
  deferred : List (BitVec 20) := []
  stepNow : Option StepCmd := none
  lastStep : Option Nat := none
  prevQset : Option Nat := none
  replayActive : Bool := false
  replayPos : Nat := 0
  pinnedAt : Nat := 7
  restartEvent : Bool := false
  lostQuarters : BitVec 4 := 0
  slackFallback : Bool := false
  headDone : List Nat := []
  ackLimit : Option Nat := none
  schedule : List (BitVec 128) := []
  deriving DecidableEq, Repr

/-- Burst states of Table 03-1; a discarded burst leaves the list. -/
inductive BurstState where
  | detected | synced | opened | closed
  deriving DecidableEq, Repr

/-- The result of one decoded block (Table 05-4) with its systematic bits, filler and untransmitted columns removed. -/
structure BlockResult where
  block : Nat := 0
  bits : List Bool := []
  iter : Nat := 0
  zeroSyndrome : Bool := false
  confirmed : Bool := false
  crcUnconfirmed : Bool := false
  poison : Bool := false
  fallback : Bool := false
  combined : Bool := false
  takeover : Bool := false
  deriving DecidableEq, Repr

/-- A burst (R72 to R74). Times are in 1/384 ns of air time; `badBits` and `badFeatures` are the poison that RECV met for it last. [DEDUCED: log 78] -/
structure Burst where
  handle : BitVec 32 := 0
  channel : BitVec 16 := 0
  airClass : Nat := 0
  state : BurstState := .detected
  trigger : Nat := 0
  syncTime : Nat := 0
  syncSlot : Nat := 0
  corrNum : Nat := 0
  corrDen : Nat := 1
  cfo : Int := 0
  rssi : Int := 0
  snr : Int := 0
  frozen : List Nat := []
  order : Nat := 0
  shortId : BitVec 20 := 0
  profile : Nat := 0
  seq : Byte := 0
  lenM1 : Nat := 0
  repeatBit : Bool := false
  ackReq : Bool := false
  home : Nat := 0
  closeSlot : Nat := 0
  endTime : Nat := 0
  headerLlr : List (Int × Bool) := []
  symbols : Nat := 0
  bitsIn : Nat := 0
  badBits : List Nat := []
  badFeatures : List Nat := []
  softBuf : List Nat := []
  header : Option BlockResult := none
  results : List BlockResult := []
  entered : SMap (List Int) := []
  crcReg : BitVec 24 := 0
  fallback : Bool := false
  cold : Bool := false
  waiting : Bool := false
  combined : Bool := false
  crcOk : Bool := false
  poisoned : Bool := false
  checked : Bool := false
  delivered : Bool := false
  group : Nat := 0
  sampling : Nat := 0
  tainted : Bool := false
  recvCore : Option Nat := none
  deriving DecidableEq, Repr

/-- A COMBINE contribution held by the home node (R105, Table 16-6): `parts` counts its data bytes, `received` lists those that
have come. -/
structure Contribution where
  kind : Nat := 0
  node : Nat := 0
  shortId : BitVec 20 := 0
  profile : Nat := 0
  seq : Byte := 0
  lenM1 : Nat := 0
  ackReq : Bool := false
  repeatBit : Bool := false
  channel : BitVec 16 := 0
  start : Nat := 0
  finish : Nat := 0
  rssi : Int := 0
  snr : Int := 0
  llrs : List Int := []
  bytes : List Byte := []
  parts : Nat := 1
  received : List Nat := []
  deriving DecidableEq, Repr

/-- A completion record held in Peat for want of ring space (R109). -/
structure HeldRecord where
  ring : Nat := 0
  shortId : BitVec 20 := 0
  seq : Byte := 0
  closeSlot : Nat := 0
  header : Record := 0
  delivered : List Byte := []
  attempts : Nat := 1
  deriving DecidableEq, Repr

/-- A burst of the own reception that has left service, as later contributions are compared with it (R105). -/
structure SeenBurst where
  shortId : BitVec 20 := 0
  seq : Byte := 0
  start : Nat := 0
  profile : Nat := 0
  lenM1 : Nat := 0
  deriving DecidableEq, Repr

/-- Gain loop of one channel and stream: gain code in 0.25 dB (R86), frozen flag (R87), and the samples and power of
the window in progress. -/
structure StreamGain where
  code : Nat := 128
  frozen : Bool := false
  windowLen : Nat := 0
  windowPower : Nat := 0
  deriving DecidableEq, Repr

/-- A channel sample: its number k, which stands for air time k × T/2 (R84), its components, and for a scaled one the gain code it was
scaled with (R86). -/
structure Sample where
  k : Nat := 0
  re : Int := 0
  im : Int := 0
  code : Nat := 0
  poison : Bool := false
  deriving DecidableEq, Repr

/-- A downlink command frame accepted and held on the job side (R444, R445). Instants are air-time ns. -/
structure HeldFrame where
  ring : Nat := 1
  seqno : BitVec 16 := 0
  anchored : Bool := false
  shortId : BitVec 20 := 0
  profile : Nat := 0
  seq : Byte := 0
  lenM1 : Nat := 0
  body : List Byte := []
  channel : BitVec 16 := 0
  start : Nat := 0
  offset : Nat := 0
  expires : Nat := 0
  released : Bool := false
  deriving DecidableEq, Repr

/-- A frame handed to the Sluice and not yet checked (R517): its descriptor, the header's MORE and SEQ and the body with its CRC-32
(R52, R66), and where it came from. -/
structure HandedFrame where
  command : Bool := false
  ring : Nat := 0
  seqno : BitVec 16 := 0
  shortId : BitVec 20 := 0
  seq : Byte := 0
  more : Bool := false
  desc : SluiceDesc := {}
  body : List Byte := []
  deriving DecidableEq, Repr

/-- Downlink frames on the job side and on their way to the Sluice; `answered` lists channel and start of the responses handed over
(R71), `recent` lists session, hand-over instant and air time in ns
of the frames of the last hour (DL_FRAMES_HOUR, DL_TIME_HOUR of Table 14-2). -/
structure Downlink where
  held : List HeldFrame := []
  handed : List HandedFrame := []
  answered : List (BitVec 16 × Nat) := []
  recent : List (BitVec 20 × Nat × Nat) := []
  deriving DecidableEq, Repr

/-- The resident image: which staging half holds it, its length, digest and identity (R118 to R120). -/
structure ImageState where
  present : Bool := false
  half : Nat := 0
  length : Nat := 0
  digest : BitVec 512 := 0
  imageId : Nat := 0
  deriving DecidableEq, Repr

/-- The receive chain (ch. 02, 03): `next` is the slot being ingested, `slots` the closed slots the slot buffer holds,
`skipped` those of them that were skipped; wideband samples by 32 × slot + stream; by channel × 32 + stream the channel samples of the
slot, the scaled ones of the slots that the buffer holds, the gains and the collision store (R101); by channel GAIN_CLIP, the noise floor plus 1 in
units of 2^-32 (0: none yet), and the sample up to which a busy channel has been searched; bursts, contributions and those of this job already discarded, held records, sessions and SEQ of records
dropped unwritten (R108), bursts that have left service. -/
structure Rx where
  ingest : SMap (List (Nat × Int × Int)) := []
  received : SMap Nat := []
  slots : List Nat := []
  next : Nat := 0
  skipped : List Nat := []
  samples : SMap (List Sample) := []
  scaled : SMap (List Sample) := []
  gains : SMap StreamGain := []
  clips : SMap Nat := []
  noiseFloor : SMap Nat := []
  holdCount : SMap Nat := []
  searched : SMap Nat := []
  rampEnd : SMap Nat := []
  bursts : List Burst := []
  nextHandle : BitVec 32 := 1
  nextOrder : Nat := 0
  contributions : List Contribution := []
  refusedCombine : List (Nat × Nat × Nat × Nat × Nat) := []
  held : List HeldRecord := []
  dropped : List (BitVec 20 × Byte) := []
  seen : List SeenBurst := []
  store : SMap (List Sample) := []
  deriving DecidableEq, Repr

/-- A block descriptor dealt to a decoder (R164, R180); block 0xFFFF is the header. -/
structure Block where
  handle : BitVec 32 := 0
  block : Nat := 0
  weights : Nat := 0
  z : Nat := 16
  takeover : Bool := false
  deriving DecidableEq, Repr

/-- A pass in progress: its blocks and its grade (R163, R164). -/
structure Pass where
  blocks : List Block := []
  fallback : Bool := false
  deriving DecidableEq, Repr

/-- A codeword in a decoder's posterior and check-message RAMs (R156): its block, the LLRs it was loaded from, the posteriors and the check
messages, whether an input carried poison, and whether a retained buffer entered (R174). -/
structure PassWord where
  block : Block := {}
  llr : List Int := []
  post : List Int := []
  msg : List Int := []
  poison : Bool := false
  combined : Bool := false
  deriving DecidableEq, Repr

/-- One cluster's graph decoder: weight RAM by DEC_WEIGHTS instance, posterior and check-message RAMs, block queue of 256 entries, the
controller's deal list, the pass in progress. -/
structure Decoder where
  weights : SMap (List Byte) := []
  ram : List PassWord := []
  queue : List Block := []
  deal : List Block := []
  pass : Option Pass := none
  fullCounted : Bool := false
  iterations : Nat := 0
  deriving DecidableEq, Repr

/-- A retained soft buffer (R173): its key, granules in use, expiry slot and age order. -/
structure Retained where
  shortId : BitVec 20 := 0
  seq : Byte := 0
  profile : Nat := 0
  lenM1 : Nat := 0
  granules : List Nat := []
  expiry : Nat := 0
  deriving DecidableEq, Repr

/-- The soft-buffer pool (R172): granules in use, retained buffers oldest first. -/
structure SoftPool where
  used : SMap Bool := []
  retained : List Retained := []
  deriving DecidableEq, Repr

/-- A swap-in request at a slice (R421). -/
structure SwapRequest where
  shortId : BitVec 20 := 0
  handle : BitVec 32 := 0
  deadline : Nat := 0
  channel : BitVec 16 := 0
  slot : Option Nat := none
  deriving DecidableEq, Repr

/-- Context management beside the records and contexts themselves, which lie in memory (ch. 14). `deferred` lists mover writes
that wait for a context transfer (R342): address, bytes, poison. -/
structure Sessions where
  requests : List SwapRequest := []
  protectedIn : SMap Nat := []
  coldInUse : SMap Nat := []
  lostSessions : SMap Bool := []
  inFlight : SMap Nat := []
  unmirrored : Option (Nat × Nat) := none
  deferred : List (Nat × List Byte × List Bool) := []
  deriving DecidableEq, Repr

/-- A head of a group: its version (R137). Its weights lie in the head bank, in memory. -/
structure Head where
  version : BitVec 16 := 0
  deriving DecidableEq, Repr

/-- A sample record of the pending area or of a training ring (R139, R141). -/
structure SampleRecord where
  features : List Byte := []
  labels : List Bool := []
  snr : Int := 0
  slot : Nat := 0
  channel : BitVec 16 := 0
  shortId : BitVec 20 := 0
  symbol : Nat := 0
  poison : Bool := false
  deriving DecidableEq, Repr

/-- A burst of the held-back set: its features by symbol and its payload with CRC (R140, R141). -/
structure HeldBack where
  slot : Nat := 0
  channel : BitVec 16 := 0
  shortId : BitVec 20 := 0
  profile : Nat := 0
  payload : List Byte := []
  records : List SampleRecord := []
  deriving DecidableEq, Repr

/-- A candidate: training steps run, the FP32 masters and momenta of W1 and W2 in row order (R142), whether it is trained, the passed
validation, and with DETERMINISTIC the held-back set it is validated on (R144, R565). -/
structure Candidate where
  steps : Nat := 0
  w1 : List (BitVec 32) := []
  w2 : List (BitVec 32) := []
  v1 : List (BitVec 32) := []
  v2 : List (BitVec 32) := []
  trained : Bool := false
  validated : Option Nat := none
  firstSlot : Nat := 0
  heldSet : Option (List HeldBack) := none
  deriving DecidableEq, Repr

/-- A rollback watch (R147): start, baseline and counts since the promotion, as bursts passed and bursts closed. -/
structure Watch where
  start : Nat := 0
  baseOk : Nat := 0
  baseAll : Nat := 0
  ok : Nat := 0
  all : Nat := 0
  checked : Nat := 0
  deriving DecidableEq, Repr

/-- One head group's heads and adaptation (R137 to R148). `closed` lists (air time, passed) of recent closings. -/
structure HeadGroup where
  active : Head := {}
  previous : Option Head := none
  candidate : Option Candidate := none
  disabled : Bool := false
  suspended : Bool := false
  rollbacks : List Nat := []
  watch : Option Watch := none
  rollbackDue : Bool := false
  ring : List SampleRecord := []
  held : List HeldBack := []
  since : Nat := 0
  closed : List (Nat × Bool) := []
  deriving DecidableEq, Repr

/-- A burst that has closed in the slot in progress, as the processing boundary commits it (R140, R147): its CRC-24 result, whether it is
valid, its payload bits and bytes, the records kept of it, and the air time of its closing. -/
structure Closing where
  burst : Burst := {}
  crcOk : Bool := false
  valid : Bool := false
  combined : Bool := false
  payload : List Bool := []
  bytes : List Byte := []
  records : List SampleRecord := []
  time : Nat := 0
  deriving DecidableEq, Repr

/-- Field adaptation: head groups by 256 × air class + group, the records kept of open bursts by handle, and the bursts closed in the
slot. -/
structure Adapt where
  groups : SMap HeadGroup := []
  open_ : SMap (List SampleRecord) := []
  closings : List Closing := []
  deriving DecidableEq, Repr

/-- A repeated range in progress (R207): first and last command index, executions still to run. -/
structure Repeat where
  first : Nat := 0
  last : Nat := 0
  left : Nat := 0
  deriving DecidableEq, Repr

/-- A stream running on a core (R187, R195): its CMD instance, its range of command indices, the next command, the
repeats, what it waits at (with the tag of a barrier command), and whether SEQ.END has issued or a fault has stopped it. -/
structure Stream where
  inst : Nat := 0
  first : Nat := 0
  len : Nat := 0
  pc : Nat := 0
  reps : List Repeat := []
  waiting : Bool := false
  barrier : Option Nat := none
  barrierTag : Nat := 0
  ended : Bool := false
  stopped : Bool := false
  adapt : Bool := false
  deriving DecidableEq, Repr

/-- A 128-byte core command (R188). -/
abbrev Cmd := BitVec 1024

/-- A command handed to a port (R196): its word, the operand bases fixed at issue (R203, R204), and for a SIG.XFER the bits flipped in
the first X or Y word that it will read. -/
structure PortCmd where
  word : Cmd := 0
  base0 : Nat := 0
  base1 : Nat := 0
  base2 : Nat := 0
  flips : List Nat := []
  deriving DecidableEq, Repr

/-- A stream ring (R352, R353). `pulls` names the group and next block of a dropped member (R360); `fills` lists the fills not
yet committed, oldest first: mover queue, serial of the command, number of the fill, all requests issued. -/
structure StreamRing where
  enabled : Bool := false
  base : Nat := 0
  slots : Nat := 0
  slotKib : Nat := 0
  lead : Nat := 0
  mcast : Bool := false
  head : BitVec 32 := 0
  tail : BitVec 32 := 0
  fill : BitVec 32 := 0
  feeds : Bool := false
  pulls : Option (Nat × Nat) := none
  fills : List (Nat × Nat × Nat × Bool) := []
  deriving DecidableEq, Repr

/-- A weight latch with its stationary sums (R225, R231, R232). State 0 EMPTY, 1 LOADING, 2 FULL; columns of element codes,
with the poison of each. -/
structure Latch where
  state : Nat := 0
  fmt : Nat := 0
  k : Nat := 0
  n : Nat := 0
  cols : List (List (Nat × Bool)) := []
  colSums : List Nat := []
  rowSums : List Nat := []
  deriving DecidableEq, Repr

/-- A command in the drain unit (R246): the stationary sums of its block, its output length and accumulator kind (0 INT40,
1 FP32, 2 complex). -/
structure Drain where
  cmd : PortCmd := {}
  len : Nat := 0
  kind : Nat := 0
  sums : List Nat := []
  deriving DecidableEq, Repr

/-- The matrix array of a core (ch. 07). Accumulator lanes hold 80 bits and poison; `step` counts the steps that the streamer's
executing command has run. -/
structure MatrixArray where
  active : Latch := {}
  shadow : Latch := {}
  token : Bool := false
  loader : List PortCmd := []
  streamer : List PortCmd := []
  step : Nat := 0
  drains : List Drain := []
  acc : SMap (List (Nat × Bool)) := []
  rowSum : SMap (Nat × Bool) := []
  deriving DecidableEq, Repr

/-- A mover packet in flight (R345, R346): queue, serial of its command, read or write, global address, scratchpad address,
bytes, the data of an answered remote read with its poison, failure, and the fill it belongs to. -/
structure Packet where
  queue : Nat := 0
  serial : Nat := 0
  read : Bool := true
  global : Nat := 0
  local_ : Nat := 0
  len : Nat := 0
  remote : Option Nat := none
  data : Option (List Byte) := none
  poison : Bool := false
  failed : Bool := false
  block : Nat := 0
  deriving DecidableEq, Repr

/-- A command in a mover queue: its serial, the position of its walk (step, byte within the step), and for RING_FEED whether
a fill is open and the slot it fills; for MCAST whether a delivery awaits its acknowledgement. -/
structure MoverCmd where
  cmd : PortCmd := {}
  serial : Nat := 0
  step : Nat := 0
  off : Nat := 0
  filling : Bool := false
  slot : Nat := 0
  deriving DecidableEq, Repr

/-- A Signal Unit register write on its way (R324, R325): the cycle at whose end it lands, the issue order, the bank, what
it writes (0 D, 1 P, 2 M, 3 B, 4 L, 5 ACC set, 6 ACC add, 7 FLAGS, 8 the sticky poison of R336), which, the value and its poison. -/
structure SuWrite where
  at_ : Nat := 0
  order : Nat := 0
  bank : Nat := 0
  kind : Nat := 0
  idx : Nat := 0
  val : Int := 0
  poison : Bool := false
  deriving DecidableEq, Repr

/-- A zero-overhead loop: body, passes left, first pass done, started by a handler. -/
structure SuLoop where
  first : Nat := 0
  last : Nat := 0
  left : Nat := 0
  cached : Bool := false
  handler : Bool := false
  deriving DecidableEq, Repr

/-- The Signal Unit of a core (ch. 10). Banked registers are keyed bank × count + index; FLAGS hold Z + 2N + 4V. X and Y
poison is kept per 64-bit word. -/
structure SignalUnit where
  x : SMap Byte := []
  y : SMap Byte := []
  c : SMap Byte := []
  xPoison : SMap Bool := []
  yPoison : SMap Bool := []
  xValid : SMap Bool := []
  yValid : SMap Bool := []
  d : SMap (BitVec 32 × Bool) := []
  p : SMap (BitVec 16) := []
  m : SMap (BitVec 16) := []
  b : SMap (BitVec 16) := []
  l : SMap (BitVec 16) := []
  acc : SMap (Int × Bool) := []
  flags : SMap (Nat × Bool) := []
  loops : List SuLoop := []
  pc : Nat := 0
  savedPc : Nat := 0
  pending : BitVec 4 := 0
  handler : Bool := false
  sinceRti : Bool := true
  running : Bool := false
  issued : Bool := false
  sticky : Bool := false
  cycle : Nat := 0
  run : Nat := 0
  order : Nat := 0
  delay : Nat := 0
  target : Option Nat := none
  done : BitVec 3 := 0
  halting : Bool := false
  returning : Bool := false
  skipTo : Option Nat := none
  writes : List SuWrite := []
  port : List PortCmd := []
  started : Bool := false
  deriving DecidableEq, Repr

/-- An entry of a core's statistics table (R307). -/
structure Stat where
  sat : Nat := 0
  unf : Nat := 0
  count : Nat := 0
  max : BitVec 32 := 0
  deriving DecidableEq, Repr

/-- A signal on its way (R361): source core, target object ID, value, tag; `after` names the mover queue and the serial
of the last command it waits for. -/
structure Signal where
  core : Nat := 0
  target : BitVec 14 := 0
  value : BitVec 32 := 0
  tag : BitVec 16 := 0
  after : Option (Nat × Nat) := none
  deriving DecidableEq, Repr

/-- A command at the vector engine's port (R196): the steps of a VEC.CHAIN whose results have landed. -/
structure VecCmd where
  cmd : PortCmd := {}
  step : Nat := 0
  deriving DecidableEq, Repr

/-- One core: command memory, program, stream, units, objects and rings (ch. 06 to 11). `call` is a SEQ.CALL in progress whose routine
waits for its mover writes (R214). [DEDUCED: log 49, 74] -/
structure Core where
  cm : SMap Cmd := []
  programs : SMap (Nat × Nat) := []
  inJob : Bool := false
  stream : Option Stream := none
  objs : SMap (BitVec 32) := []
  rings : SMap StreamRing := []
  array : MatrixArray := {}
  vec : List VecCmd := []
  call : Option Cmd := none
  movers : SMap (List MoverCmd) := []
  packets : List Packet := []
  serial : Nat := 0
  signals : List Signal := []
  dones : List Nat := []
  su : SignalUnit := {}
  stats : SMap Stat := []
  tagMap : List (Nat × Nat × Nat) := []
  deriving DecidableEq, Repr

/-- A multicast group as the running phase sees it (R357, R360): dropped members and blocks delivered. -/
structure Group where
  dropped : List Nat := []
  blocks : Nat := 0
  deriving DecidableEq, Repr

/-- The compute side as a whole: signals in flight, barrier generations, the counts of each barrier's tree, the participants, multicast groups of each
sender cluster, tensor scales in force, and the stall detector. -/
structure Compute where
  signals : List Signal := []
  barrierGen : SMap Bool := []
  barCounts : SMap Nat := []
  participants : SMap Bool := []
  groups : SMap Group := []
  scales : SMap (BitVec 32) := []
  lastEvent : Nat := 0
  quietSince : Option Nat := none
  sideRecord : Option Record := none
  deriving DecidableEq, Repr

/-- A fabric packet as its flow holds it (Tables 16-4, 16-5); `poison` marks poisoned data. [DESIGN CHOICE: log 165] -/
structure FabricPacket where
  kind : Nat := 0
  addr : Nat := 0
  reqId : Nat := 0
  status : Nat := 0
  body : List Byte := []
  poison : Bool := false
  deriving DecidableEq, Repr

/-- Both directions of the sequenced flow with one node (R473): the next SEQ to send, packets sent and not acknowledged,
packets waiting for the window, the next SEQ expected, when an acknowledgement became owed, retransmissions without
progress, the time of the last (re)transmission of the oldest, and the SEQ of the packet that carries RESET. [DEDUCED: log 161] -/
structure Flow where
  next : BitVec 32 := 0
  unacked : List (BitVec 32 × FabricPacket) := []
  waiting : List FabricPacket := []
  expect : BitVec 32 := 0
  owed : Option Nat := none
  tries : Nat := 0
  since : Nat := 0
  reset : Option (BitVec 32) := none
  deriving DecidableEq, Repr

/-- A memory request sent to a remote node (R477). -/
structure RemoteRequest where
  id : Nat := 0
  node : Nat := 0
  core : Nat := 0
  tag : Nat := 0
  read : Bool := true
  seq : BitVec 32 := 0
  deriving DecidableEq, Repr

/-- One side of the ring, 4 E or 5 W (R470, R475): the accepted neighbour, whether the link is broken or mismatched,
missed keepalives, and when the last keepalive came. -/
structure RingSide where
  neighbour : Option Nat := none
  broken : Bool := false
  misses : Nat := 0
  deriving DecidableEq, Repr

/-- A port (R458 to R460): lanes in use while up, fall-back mark, end of retraining. -/
structure Port where
  up : Bool := false
  lanes : List Nat := []
  degraded : Bool := false
  retrainUntil : Option Nat := none
  deriving DecidableEq, Repr

/-- Ethernet ports, fabric and redundant pair (ch. 16). Ports 0 to 3 are N0 to N3, 4 E, 5 W; `peers` holds bit 0 E broken
and bit 1 W broken as each node last reported, and its bypass list from bit 2 on; roles 0 none, 1 standby, 2 active.
`ringPowered`: FABRIC_CTRL.ENABLE was taken as set at job start (R557). `relinquish`: the next PAIR_HB carries RELINQUISH.
`linkRetry`: a fabric retransmission in the slot in progress (R473). -/
structure Net where
  ports : SMap Port := []
  laneOk : BitVec 8 := 0
  flows : SMap Flow := []
  requests : List RemoteRequest := []
  nextReq : Nat := 0
  sides : SMap RingSide := []
  peers : SMap Nat := []
  dupNode : Bool := false
  ruFrames : SMap Nat := []
  role : Nat := 0
  roleNext : Option Nat := none
  partnerSlot : Option Nat := none
  relinquish : Bool := false
  ringPowered : Bool := false
  linkRetry : Bool := false
  faulted : Bool := false
  deriving DecidableEq, Repr

/-- The state of the module. [DESIGN CHOICE: log 205, 206] -/
structure State where
  pending : List Instr := []
  sys : Sys := {}
  heron : Heron := {}
  power : Power := {}
  storage : Storage := {}
  sluice : Sluice := {}
  time : TimeUnit := {}
  pins : Pins := {}
  jtag : Jtag := {}
  job : Job := {}
  rx : Rx := {}
  decoders : SMap Decoder := []
  soft : SoftPool := {}
  sessions : Sessions := {}
  downlink : Downlink := {}
  image : ImageState := {}
  adapt : Adapt := {}
  cores : SMap Core := []
  comp : Compute := {}
  net : Net := {}
  deriving DecidableEq, Repr

/-- Right after VAUX has risen: every register at its reset value, no command waiting; the flash and the identity key are those
of the part, whose bytes the manual does not give. [DEDUCED: log 9; DESIGN CHOICE: log 2, 8; UNVERIFIED: log 218] -/
def State.reset : State :=
  { heron := { flash := Config.factoryFlash, identityKey := Config.factoryKey, identityCert := Config.factoryCertificate } }

end Sys2Proof.Machine
end

