-- ==== Sys2Proof/Machine/Ops.lean ====
section
/-! DEFINITION. The named operations every family uses: sparse maps, memory by the local address map with poison and
valid marks, registers with their triplicated copies, counters, free values, host rings, interrupts, the event ring,
event records and fault records. -/

namespace Sys2Proof.Machine

/-! ### Sparse maps -/

/-- What key `k` reads as: its entry, or the default. -/
def mapGet {α : Type} (d : Nat → α) (k : Nat) : SMap α → α
  | [] => d k
  | e :: m => if e.1 = k then e.2 else mapGet d k m

/-- Put an entry before the first whose key is larger. -/
def mapInsert {α : Type} (k : Nat) (v : α) : SMap α → SMap α
  | [] => [(k, v)]
  | e :: m => if k < e.1 then (k, v) :: e :: m else e :: mapInsert k v m

/-- Set key `k`: entries of `k` go, and the new value is listed unless it is the default, so equal maps are equal lists. -/
def mapSet {α : Type} [DecidableEq α] (d : Nat → α) (k : Nat) (v : α) (m : SMap α) : SMap α :=
  let rest := m.filter fun e => e.1 != k
  if v = d k then rest else mapInsert k v rest

/-- The canonical form: keys strictly rising, no entry equal to its default. -/
def mapWf {α : Type} [DecidableEq α] (d : Nat → α) : SMap α → Bool
  | [] => true
  | e :: m => decide (e.2 ≠ d e.1) && m.all (fun f => decide (e.1 < f.1)) && mapWf d m

/-- Keep the entries whose key satisfies `p`. -/
def mapFilter {α : Type} (p : Nat → Bool) (m : SMap α) : SMap α := m.filter fun e => p e.1

/-- Insert where `before` no longer puts the listed element first; equal elements keep their order. -/
def insertBy {α : Type} (before : α → α → Bool) (x : α) : List α → List α
  | [] => [x]
  | y :: l => if before y x then y :: insertBy before x l else x :: y :: l

/-- Stable sort: `before a b` says that `a` may stand before `b`. -/
def sortBy {α : Type} (before : α → α → Bool) (l : List α) : List α := l.foldl (fun acc x => insertBy before x acc) []

/-- Counts by key: unlisted keys read zero. -/
def zeroNat (_ : Nat) : Nat := 0

/-- Flags by key: unlisted keys read false. -/
def noFlag (_ : Nat) : Bool := false

def natAt (m : SMap Nat) (k : Nat) : Nat := mapGet zeroNat k m
def natPut (m : SMap Nat) (k v : Nat) : SMap Nat := mapSet zeroNat k v m
def flagAt (m : SMap Bool) (k : Nat) : Bool := mapGet noFlag k m
def flagPut (m : SMap Bool) (k : Nat) (v : Bool) : SMap Bool := mapSet noFlag k v m

/-! ### Numbers and bytes (little-endian, R4) -/

/-- The number a list of bytes spells, first byte least significant. -/
def bytesToNat : List Byte → Nat
  | [] => 0
  | b :: bs => b.toNat + 256 * bytesToNat bs

/-- The `n` low bytes of a number, least significant first. -/
def natToBytes : Nat → Nat → List Byte
  | 0, _ => []
  | n + 1, v => BitVec.ofNat 8 v :: natToBytes n (v / 256)

/-- Bits `[lo+len-1 : lo]` of a number. -/
def bitsOf (v lo len : Nat) : Nat := v / 2 ^ lo % 2 ^ len

/-- Replace bits `[lo+len-1 : lo]`. -/
def putBits (v lo len x : Nat) : Nat :=
  v - bitsOf v lo len * 2 ^ lo + (x % 2 ^ len) * 2 ^ lo

/-- Bytes `o` to `o+n-1` of a list as a number; bytes past the end read zero. -/
def fieldAt (bs : List Byte) (o n : Nat) : Nat := bytesToNat ((bs.drop o).take n)

/-- A record from (byte offset, byte count, value) triples; every other byte is zero (R614). -/
def mkRecord (fs : List (Nat × Nat × Nat)) : Record :=
  BitVec.ofNat 256 (fs.foldl (fun a f => a + (f.2.2 % 2 ^ (8 * f.2.1)) * 2 ^ (8 * f.1)) 0)

/-- The two's complement number in the low `n` bits. -/
def toSigned (n v : Nat) : Int :=
  let x := v % 2 ^ n
  if x < 2 ^ (n - 1) then (x : Int) else (x : Int) - (2 ^ n : Nat)

/-- The low `n` bits of a signed number. -/
def ofSigned (n : Nat) (v : Int) : Nat := (v % ((2 ^ n : Nat) : Int)).toNat

/-- Clamp to the signed `n`-bit range. -/
def satSigned (n : Nat) (v : Int) : Int :=
  if v < -((2 ^ (n - 1) : Nat) : Int) then -((2 ^ (n - 1) : Nat) : Int)
  else if ((2 ^ (n - 1) : Nat) : Int) ≤ v then ((2 ^ (n - 1) : Nat) : Int) - 1 else v

/-! ### Air time -/

/-- Air time in whole ns (R392). -/
def Sys.now (s : Sys) : Nat := (s.air >>> 32).toNat

/-- The top 16 bits of the fraction (R392). -/
def Sys.nowFrac16 (s : Sys) : Nat := (s.air.toNat / 2 ^ 16) % 2 ^ 16

/-! ### Registers -/

/-- The default of a register's stored value: its reset value (R581). -/
def Sys.regStored (s : Sys) (off : Nat) : Nat := mapGet regReset off s.regs.val

/-- No majority exists for the word (R496): fewer than two readable copies agree. -/
def TmrWord.noMajority (w : TmrWord) : Bool :=
  match w.bad.toNat with
  | 0 => false
  | 1 => w.xorB != w.xorC
  | 2 => w.xorC != 0
  | 4 => w.xorB != 0
  | _ => true

/-- Bit-by-bit majority of copies `v`, `v ^ xorB`, `v ^ xorC`; with one unreadable copy, the copies that remain. -/
def TmrWord.read (w : TmrWord) (v : Nat) : Nat :=
  if w.bad = 0 then v ^^^ (w.xorB &&& w.xorC)
  else if w.bad = 1 then v ^^^ w.xorB else v

def tmrDefault (_ : Nat) : TmrWord := {}

def Sys.tmrWord (s : Sys) (off : Nat) : TmrWord := mapGet tmrDefault off s.regs.tmr

/-- A register's value as every reader takes it: the majority of its copies (R495). -/
def Sys.reg (s : Sys) (off : Nat) : Nat := (s.tmrWord off).read (s.regStored off)

/-- A field of a register. -/
def Sys.regField (s : Sys) (off lo len : Nat) : Nat := bitsOf (s.reg off) lo len

/-- Store a register's value, in all copies. -/
def Sys.setReg (s : Sys) (off v : Nat) : Sys :=
  { s with regs := { s.regs with val := mapSet regReset off v s.regs.val,
                                 tmr := mapSet tmrDefault off {} s.regs.tmr } }

/-- The slot length in ns of JOB_SLOT.SLOT_LEN (R394, Table 21-6); the reserved code reads as a free value. [DESIGN CHOICE: log 30] -/
def Sys.slotLen (s : Sys) : Nat :=
  match s.regField 0x080020 0 2 with
  | 0 => 500000
  | 1 => 1000000
  | 2 => 2000000
  | _ => Config.reservedSlotLen + 1

/-- The slot number of an instant (R394). -/
def Sys.slotOf (s : Sys) (ns : Nat) : Nat := ns / s.slotLen

/-- The node ID of this module (R11). -/
def Sys.node (s : Sys) : Nat := s.regField 0x0B0000 0 6

/-! ### Free values -/

/-- Draw a free value of width `w`: nothing fixes it but that this draw has it. [DESIGN CHOICE: log 7] -/
def Sys.draw (s : Sys) (w : Nat) : BitVec w × Sys :=
  (Config.freeBits w s.seed, { s with seed := s.seed + 1 })

/-- Free bytes: data of a packet in the control range, which are the unit's, and the estimates a burst leaves in its context. [DEDUCED: log 23] -/
def freeBytes (n : Nat) (y : Sys) : List Byte × Sys :=
  ((List.range n).map fun i => Config.freeBits 8 (y.seed + i), { y with seed := y.seed + n })

/-! ### Counters (R592) -/

/-- The largest count a counter holds. -/
def counterMax : Nat := 2 ^ 64 - 1

/-- Add `n` occurrences to a class counter, holding at 2^64 − 1 (R592). -/
def Sys.countN (s : Sys) (cls n : Nat) : Sys :=
  { s with counters := natPut s.counters cls (min counterMax (natAt s.counters cls + n)) }

def Sys.count (s : Sys) (cls : Nat) : Sys := s.countN cls 1

/-- Add to a count kept in a core, cluster controller or decoder, which a later fold brings to the ERR block (R592). [DEDUCED: log 22] -/
def Sys.countLocal (s : Sys) (cls n : Nat) : Sys :=
  { s with unfolded := natPut s.unfolded cls (natAt s.unfolded cls + n) }

/-- Fold the counts kept in units into the ERR block (R592). [DEDUCED: log 22] -/
def Sys.fold (s : Sys) : Sys :=
  let s' := s.unfolded.foldl (fun a e => a.countN e.1 e.2) s
  { s' with unfolded := [] }

/-! ### Fences (R30, R24) -/

def Sys.quarterGone (s : Sys) (q : Nat) : Bool := s.fences.lost.getLsbD q

def Sys.coreFenced (s : Sys) (c : Nat) : Bool :=
  decide (natAt s.fences.core c ≠ 0) || s.quarterGone (c / 256)

def Sys.decoderFenced (s : Sys) (g : Nat) : Bool :=
  decide (natAt s.fences.decoder g ≠ 0) || s.quarterGone (g / 16)

def Sys.peatFenced (s : Sys) (g : Nat) : Bool :=
  decide (natAt s.fences.peat g ≠ 0) || s.quarterGone (g / 16)

def Sys.sliceFenced (s : Sys) (g : Nat) : Bool :=
  decide (natAt s.fences.slice g ≠ 0) || s.quarterGone (g / 16)

def Sys.channelFenced (s : Sys) (n : Nat) : Bool :=
  decide (natAt s.fences.channel n ≠ 0) || s.quarterGone (n / 4)

/-- Put a fence in force; a fence already there keeps its cause. -/
def putFence (m : SMap Nat) (k cause : Nat) : SMap Nat :=
  if natAt m k = 0 then natPut m k cause else m

def Sys.fenceCore (s : Sys) (c cause : Nat) : Sys :=
  { s with fences := { s.fences with core := putFence s.fences.core c cause } }

/-! ### Memory by the local address map (R21 to R25) -/

/-- What a local address names (Table 01-4). -/
inductive Region where
  | lpddr (channel : Nat)
  | scratchpad (core : Nat)
  | peat (cluster : Nat)
  | context (slot : Nat)
  | control
  | host
  | unmapped
  deriving DecidableEq, Repr

/-- Decode of the 46-bit local address (R21, R22). -/
def regionOf (a : Nat) : Region :=
  if a < 0x0800000000 then .lpddr (4 * bitsOf a 33 2 + bitsOf a 12 2)
  else if a < 0x1000000000 then .unmapped
  else if a < 0x1020000000 then .scratchpad ((a - 0x1000000000) / 0x80000)
  else if a < 0x1100000000 then .unmapped
  else if a < 0x1140000000 then .peat ((a - 0x1100000000) / 0x1000000)
  else if a < 0x1200000000 then .unmapped
  else if a < 0x1200A00000 then .context ((a - 0x1200000000) / 256)
  else if a < 0x1300000000 then .unmapped
  else if a < 0x1310000000 then .control
  else if a < 0x1400000000 then .unmapped
  else if a < 0x400000000000 then .host
  else .unmapped

/-- See the log. [DESIGN CHOICE: log 210] -/
def hostBase : Nat := 0x1400000000
def spadBase (core : Nat) : Nat := 0x1000000000 + core * 0x80000
def peatBase (cluster : Nat) : Nat := 0x1100000000 + cluster * 0x1000000
def contextBase (slot : Nat) : Nat := 0x1200000000 + slot * 256

/-- The fault class an access to a local address meets, if any: ADDR_UNMAPPED (R23) or FENCED_ACCESS (R24). -/
def Sys.localFault (s : Sys) (a : Nat) : Option Nat :=
  match regionOf a with
  | .unmapped => some Cls.ADDR_UNMAPPED
  | .lpddr n => if s.channelFenced n then some Cls.FENCED_ACCESS else none
  | .scratchpad c => if s.coreFenced c then some Cls.FENCED_ACCESS else none
  | .peat g => if s.peatFenced g then some Cls.FENCED_ACCESS else none
  | .context k => if s.sliceFenced (k / 640) then some Cls.FENCED_ACCESS else none
  | .control => none
  | .host => none

/-- Where a global address leads (R25); one beyond 52 bits is unmapped. -/
inductive Target where
  | here (addr : Nat)
  | remote (node : Nat) (addr : Nat)
  | refused (cls : Nat)
  deriving DecidableEq, Repr

/-- See the log. [DEDUCED: log 23; DESIGN CHOICE: log 210] -/
def Sys.target (s : Sys) (g : Nat) : Target :=
  let node := bitsOf g 46 6
  let a := bitsOf g 0 46
  if 2 ^ 52 ≤ g then .refused Cls.ADDR_UNMAPPED
  else if node = s.node then
    match s.localFault a with
    | some c => .refused c
    | none => .here a
  else if regionOf a = .host then .refused Cls.ADDR_UNMAPPED
  else .remote node a

/-- The first byte of the protected word that holds a byte, and its size (Table 17-1). -/
def protectedSize (a : Nat) : Nat :=
  match regionOf a with
  | .context _ => 8
  | _ => 32

def protectedWord (a : Nat) : Nat := a / protectedSize a * protectedSize a

/-- Does the storage at this address keep poison? The host window and the control range do not. [DESIGN CHOICE: log 29] -/
def keepsPoison (a : Nat) : Bool :=
  match regionOf a with
  | .lpddr _ | .scratchpad _ | .peat _ | .context _ => true
  | _ => false

/-- The line or page whose valid bit covers an address (R497); `none` where no valid bit is kept. -/
def validKey (a : Nat) : Option Nat :=
  match regionOf a with
  | .lpddr _ => some (a / 4096 * 4096)
  | .scratchpad _ | .peat _ => some (a / 64 * 64)
  | _ => none

/-- What a byte nothing has written reads as: zero (R497, R500). [DEDUCED: log 20] -/
def unwritten (_ : Nat) : Byte := 0

/-- The byte stored at a local address. [DEDUCED: log 20] -/
def Sys.peek (s : Sys) (a : Nat) : Byte := mapGet unwritten a s.mem

/-- The canonical form of memory. [DEDUCED: log 20] -/
def Memory.wf (m : List Host.Cell) : Bool := mapWf unwritten m

/-- `n` bytes from a local address. -/
def Sys.peekN (s : Sys) (a : Nat) : Nat → List Byte
  | 0 => []
  | n + 1 => s.peek a :: s.peekN (a + 1) n

/-- `n` bytes from a local address as a little-endian number. -/
def Sys.peekNat (s : Sys) (a n : Nat) : Nat := bytesToNat (s.peekN a n)

/-- Store one byte. [DEDUCED: log 20] -/
def Sys.poke (s : Sys) (a : Nat) (b : Byte) : Sys := { s with mem := mapSet unwritten a b s.mem }

/-- Store bytes from a local address on. -/
def Sys.pokeN (s : Sys) (a : Nat) : List Byte → Sys
  | [] => s
  | b :: bs => (s.poke a b).pokeN (a + 1) bs

/-- The protected words that `n` bytes from `a` touch. -/
def wordsTouched (a n : Nat) : List Nat :=
  if n = 0 then [] else
    let w := protectedSize a
    let first := a / w
    let last := (a + n - 1) / w
    (List.range (last - first + 1)).map fun i => (first + i) * w

/-- Is any protected word of the range poisoned? [DESIGN CHOICE: log 29] -/
def Sys.poisoned (s : Sys) (a n : Nat) : Bool :=
  keepsPoison a && (wordsTouched a n).any fun w => flagAt s.poison w

/-- Poison after a write of `n` bytes from `a` (R510): a word covered whole takes the data's mark, a word covered in
part is poisoned when either part is. -/
def Sys.markPoison (s : Sys) (a n : Nat) (p : Bool) : Sys :=
  if keepsPoison a then
    let sz := protectedSize a
    { s with poison := (wordsTouched a n).foldl (fun m w =>
        let whole := decide (a ≤ w ∧ w + sz ≤ a + n)
        flagPut m w (if whole then p else (p || flagAt m w))) s.poison }
  else s

/-- Set the valid bits of the lines or pages written (R497, R498). -/
def Sys.markValid (s : Sys) (a n : Nat) : Sys :=
  { s with valid := (wordsTouched a n).foldl (fun m w =>
      match validKey w with
      | some k => flagPut m k true
      | none => m) s.valid }

/-- STATE of the metadata symbol of the LPDDR6 granules a write touches: the source of their last write (R491). -/
def Sys.markState (s : Sys) (a n v : Nat) : Sys :=
  match regionOf a with
  | .lpddr _ => { s with granuleState := (wordsTouched a n).foldl (fun m w => natPut m w v) s.granuleState }
  | _ => s

/-- Write bytes with a poison mark into module memory or the host window. [DEDUCED: log 26] -/
def Sys.store (s : Sys) (a : Nat) (bs : List Byte) (p : Bool) : Sys :=
  (((s.pokeN a bs).markPoison a bs.length p).markValid a bs.length).markState a bs.length 0

/-- Write bytes with a poison mark of their own each. -/
def storeMarked (a : Nat) (bs : List Byte) (marks : List Bool) (y : Sys) : Sys :=
  (List.range bs.length).foldl (fun z i => if marks.getD i false then z.markPoison (a + i) 1 true else z) (y.store a bs false)

/-- Read `n` bytes and their poison. A poisoned read from a weight copy is remembered (R512). [DEDUCED: log 26] -/
def Sys.load (s : Sys) (a n : Nat) : List Byte × Bool := (s.peekN a n, s.poisoned a n)

/-- R512: a read that returns poison from a weight copy's range. [DESIGN CHOICE: log 48] -/
def Sys.noteWeightRead (s : Sys) (a n : Nat) : Sys :=
  if s.poisoned a n && s.weightRanges.any (fun r => decide (a < r.1 + r.2 ∧ r.1 < a + n)) then
    { s with weightPoison := true }
  else s

/-- Clear the valid bits of the storages `p` selects: their lines read zero without poison (R497). -/
def Sys.clearValid (s : Sys) (p : Nat → Bool) : Sys :=
  { s with mem := mapFilter (fun a => !p a) s.mem,
           poison := mapFilter (fun a => !p a) s.poison,
           valid := mapFilter (fun a => !p a) s.valid,
           granuleState := mapFilter (fun a => !p a) s.granuleState }

/-! ### Rings, interrupts and the event ring -/

def ringDefault (_ : Nat) : HostRing := {}

def Sys.ring (s : Sys) (r : Nat) : HostRing := mapGet ringDefault r s.rings

def Sys.setRing (s : Sys) (r : Nat) (h : HostRing) : Sys :=
  { s with rings := mapSet ringDefault r h s.rings }

/-- Slots of the ring. -/
def HostRing.size (h : HostRing) : Nat := 2 ^ h.log2

/-- Occupied slots of a completion ring: module's tail ahead of the host's head. -/
def HostRing.used (h : HostRing) : Nat := (h.modPos + h.size - h.hostPos) % h.size

/-- Free slots: a ring holds at most size − 1 (R433). -/
def HostRing.free (h : HostRing) : Nat := h.size - 1 - h.used

/-- Move the module's position `n` slots on, inverting the pass phase at the wrap (R434). -/
def HostRing.advance (h : HostRing) (n : Nat) : HostRing :=
  { h with modPos := (h.modPos + n) % h.size,
           phase := if h.size ≤ h.modPos + n then !h.phase else h.phase }

/-- Local address of slot `i` of a ring. -/
def HostRing.slotAddr (h : HostRing) (i : Nat) : Nat := hostBase + h.base + 32 * (i % h.size)

/-- The pass phase of the slot `n` places ahead of the module's position. -/
def HostRing.phaseAt (h : HostRing) (n : Nat) : Bool := (h.advance n).phase

/-- Mask bit of an MSI-X vector: bit 0 of the fourth word of its table entry. -/
def Sys.msixMasked (s : Sys) (v : Nat) : Bool :=
  (mapGet (fun _ => (0 : BitVec 32)) (4 * v + 3) s.msixTable).getLsbD 0

/-- Signal a vector: send the message, or set the pending bit while masked (R452). -/
def Sys.signalVector (s : Sys) (v : Nat) : Sys :=
  if s.msixMasked v then { s with msixPending := s.msixPending ||| (1#64 <<< v) }
  else { s with sent := s.sent ++ [.msix v] }

/-- Signal a completion ring after a written entry: at once with COALESCE 0 or for a fault, else after COALESCE from its
first unsignalled entry (R452). -/
def Sys.signalRing (s : Sys) (r : Nat) (urgent : Bool) : Sys :=
  let h := s.ring r
  if urgent || h.coalesce == 0 then
    (s.setRing r { h with unsigSince := none }).signalVector h.vector
  else
    s.setRing r { h with unsigSince := h.unsigSince <|> some s.now }

def evq : Nat := 16

/-- Can EVQ take an entry: enabled, with two free slots (R447, R448). -/
def Sys.evqOpen (s : Sys) : Bool := (s.ring evq).enabled && decide (2 ≤ (s.ring evq).free)

/-- The envelope slot of an EVQ entry (R447). -/
def envelope (phase : Bool) (kind : Nat) (seqno : BitVec 16) (cls now : Nat) : Record :=
  mkRecord [(0, 1, phase.toNat), (1, 1, kind), (2, 2, seqno.toNat), (4, 2, cls), (8, 8, now)]

/-- Write one entry: record slot, envelope, interrupt (R447, R451, R452). -/
def Sys.writeEvq (s : Sys) (kind cls : Nat) (r : Record) : Sys :=
  let h := s.ring evq
  let s1 := s.pokeN (h.slotAddr (h.modPos + 1)) (natToBytes 32 r.toNat)
  let s2 := s1.pokeN (h.slotAddr h.modPos) (natToBytes 32 (envelope h.phase kind h.seqno cls s.now).toNat)
  let h' := { h.advance 2 with seqno := h.seqno + 1 }
  (s2.setRing evq h').signalRing evq (kind == 1)

/-- The record of a KIND 3 entry (R448). -/
def lostRecord (first n : Nat) : Record :=
  mkRecord [(0, 2, Cls.EVENT_DROP), (2, 2, first), (4, 4, min n (2 ^ 32 - 1))]

/-- Events and faults held, outside which completions wait (R448). [DEDUCED: log 28] -/
def Sys.heldCount (s : Sys) : Nat := (s.held.filter fun e => !e.completion).length

/-- Write the entry that is next in order, if EVQ has room: the KIND 3 entry after a drop, else the oldest held. [DEDUCED: log 215] -/
def Sys.flushOne (s : Sys) : Sys :=
  if s.evqOpen then
    if s.dropped ≠ 0 then
      { s with dropped := 0, dropFirst := 0 }.writeEvq 3 Cls.EVENT_DROP (lostRecord s.dropFirst s.dropped)
    else
      match s.held with
      | [] => s
      | e :: rest => { s with held := rest }.writeEvq e.kind e.cls e.record
  else s

/-- Write held entries in order as space allows (R448), at most `n` of them. [DEDUCED: log 28, 215] -/
def Sys.flush (s : Sys) : Nat → Sys
  | 0 => s
  | n + 1 => s.flushOne.flush n

/-- Post an entry: written at once when nothing waits before it and EVQ has room; else held; an event or fault that
finds the 1,024 places full is dropped and counted (R448). [DEDUCED: log 28] -/
def Sys.post (s : Sys) (e : EvEntry) : Sys :=
  if s.evqOpen && s.held.isEmpty && s.dropped == 0 then s.writeEvq e.kind e.cls e.record
  else if e.completion || decide (s.heldCount < 1024) then { s with held := s.held ++ [e] }
  else
    { s with dropped := s.dropped + 1,
             dropFirst := if s.dropped = 0 then e.cls else s.dropFirst }.count Cls.EVENT_DROP

/-- Raise an event of a class: count it and post its record, with CLASS in bytes 0–1 (R614, R592). -/
def Sys.event (s : Sys) (cls : Nat) (fs : List (Nat × Nat × Nat)) : Sys :=
  (s.count cls).post { kind := 0, cls := cls, record := mkRecord ((0, 2, cls) :: fs) }

/-- The envelope kind of COMPLETION and STEP_DONE is 2 (R614). -/
def Sys.completion (s : Sys) (cls ring opcode seqno status reason : Nat) (detail : Nat) : Sys :=
  (s.count cls).post
    { completion := true, kind := 2, cls := cls,
      record := mkRecord [(0, 2, cls), (2, 1, ring), (3, 1, opcode), (4, 2, seqno), (6, 1, status), (7, 1, reason),
                          (8, 8, s.now), (16, 16, detail)] }

/-! ### Faults (R34, R531, R532, R593) -/

/-- A fault record in the layout of Table 15-9; `detail` holds the facts that its DETAIL carries. [UNVERIFIED: log 17] -/
def faultRecord (cls unit core tag now detail : Nat) : Record :=
  mkRecord [(0, 2, cls), (2, 1, unit), (4, 2, core % 1024), (6, 2, tag), (8, 8, now), (16, 16, (Config.faultDetail cls detail).toNat)]

/-- Heron's fault log: the first 256 records are kept, later ones fill a ring of 3,840 (R593). [DESIGN CHOICE: log 27] -/
def Sys.log (s : Sys) (r : Record) : Sys :=
  if s.logKept.length < 256 then { s with logKept := s.logKept ++ [r] }
  else if s.logRing.length < 3840 then { s with logRing := s.logRing ++ [r] }
  else { s with logRing := s.logRing.drop 1 ++ [r] }

/-- Classes with the reaction "job faults" (Table 18-5, R366); RACE and TMR_FAIL depend on their case. -/
def jobFaultClass (cls : Nat) : Bool :=
  decide (cls ∈ [Cls.ILLEGAL_CMD, Cls.MISALIGNED, Cls.MODE, Cls.ROUTINE_ABSENT, Cls.ARR_STARVE, Cls.SU_ILLEGAL,
    Cls.SU_TIMEOUT, Cls.RING_ERROR, Cls.SYNC_STALL, Cls.RING_STALL, Cls.WEIGHT_POISON, Cls.SIDE_POISON,
    Cls.JOB_LOAD_POISON, Cls.CMD_ECC, Cls.SU_ECC, Cls.ARRAY_PARITY, Cls.QUARTER_LOST])

/-- A copy of the air time with no distance from it. -/
def zeroInt (_ : Nat) : Int := 0

/-- The air-time copy of a quarter (R35), in ns modulo 2^64. [DESIGN CHOICE: log 251] -/
def Sys.airCopy (s : Sys) (quarter : Nat) : Nat := ((s.now : Int) + mapGet zeroInt quarter s.copies).toNat % 2 ^ 64

/-- The four copies at some distance of at most 10 ns from the time unit (R35); where in that bound is free. [DESIGN CHOICE: log 251] -/
def Sys.driftCopies (s : Sys) : Sys :=
  (List.range 4).foldl (fun y q =>
    let d := y.draw 5
    { d.2 with copies := mapSet zeroInt q ((d.1.toNat % 21 : Nat) - 10 : Int) d.2.copies }) s

/-- Write a fault record: log, counter, ANY_FAULT and EVQ (R34, R591, R593); `faultsJob` also leaves it for JOB_FAULT. [DESIGN CHOICE: log 251] -/
def Sys.faultWith (s : Sys) (faultsJob : Bool) (cls unit core tag detail : Nat) : Sys :=
  let r := faultRecord cls unit core tag (s.airCopy (core / 256 % 4)) detail
  let s1 := ({ s with anyFault := true }.log r).count cls
  let s2 := if faultsJob then { s1 with jobFault := s1.jobFault <|> some r } else s1
  s2.post { kind := 1, cls := cls, record := r }

/-- See the log. [DESIGN CHOICE: log 27] -/
def Sys.fault (s : Sys) (cls unit core tag detail : Nat) : Sys :=
  s.faultWith (jobFaultClass cls) cls unit core tag detail

/-! ### Fenced or unmapped accesses -/

/-- Read `n` bytes at a local address by a unit: zeros with poison and a fault record where R23 or R24 applies. -/
def Sys.readLocal (s : Sys) (a n unit core tag : Nat) : List Byte × Bool × Sys :=
  match s.localFault a with
  | some c => (List.replicate n 0, true, s.fault c unit core tag a)
  | none => (s.peekN a n, s.poisoned a n, s.noteWeightRead a n)

/-- Write at a local address by a unit: discarded with a fault record where R23 or R24 applies. -/
def Sys.writeLocal (s : Sys) (a : Nat) (bs : List Byte) (p : Bool) (unit core tag : Nat) : Sys :=
  match s.localFault a with
  | some c => s.fault c unit core tag a
  | none => s.store a bs p

end Sys2Proof.Machine
end

