-- ==== Sys2Proof/Machine/Coding.lean ====
section
/-! DEFINITION. The coding of the air interface (ch. 02): profiles, header, check sequences, scrambler, LDPC codes,
segmentation and symbol timing. -/

namespace Sys2Proof.Machine

/-! ### Bits -/

/-- Bits of a byte, most significant first (R51). -/
def byteBits (b : Byte) : List Bool := (List.range 8).map fun i => b.getLsbD (7 - i)

def bytesBits (bs : List Byte) : List Bool := bs.flatMap byteBits

/-- The low `n` bits of a number, most significant first. -/
def natBits (n v : Nat) : List Bool := (List.range n).map fun i => v.testBit (n - 1 - i)

/-- The number a list of bits spells, first bit most significant. -/
def bitsNat (bs : List Bool) : Nat := bs.foldl (fun a b => 2 * a + b.toNat) 0

/-- Bits packed into bytes, most significant bit of each byte first; the last byte is padded with zeros. -/
def packBits (bs : List Bool) : List Byte :=
  (List.range ((bs.length + 7) / 8)).map fun i =>
    let c := (bs.drop (8 * i)).take 8
    BitVec.ofNat 8 (bitsNat c * 2 ^ (8 - c.length))

/-! ### Check sequences (R53, R56, R67) -/

/-- One bit through an MSB-first CRC register of width `w`. -/
def crcStep (w poly reg : Nat) (b : Bool) : Nat :=
  let shifted := reg * 2 % 2 ^ w
  if reg.testBit (w - 1) != b then shifted ^^^ poly else shifted

def crcRun (w poly reg : Nat) (bs : List Bool) : Nat := bs.foldl (crcStep w poly) reg

/-- CRC-24 (R56) continued from a register. -/
def crc24From (reg : Nat) (bs : List Bool) : Nat := crcRun 24 0x864CFB reg bs

def crc24Init : Nat := 0xB704CE

def crc24 (bs : List Byte) : Nat := crc24From crc24Init (bytesBits bs)

/-- The payload followed by its CRC-24, most significant byte first (R56). -/
def withCrc24 (bs : List Byte) : List Byte := bs ++ (natToBytes 3 (crc24 bs)).reverse

/-- CRC-16 of the header (R53). -/
def hcrc (bs : List Bool) : Nat := crcRun 16 0x1021 0xFFFF bs

/-- One bit through the reflected CRC-32 register. -/
def crc32Step (reg : Nat) (b : Bool) : Nat :=
  let shifted := reg / 2
  if reg.testBit 0 != b then shifted ^^^ 0xEDB88320 else shifted

def crc32Run (reg : Nat) (bs : List Byte) : Nat :=
  bs.foldl (fun r b => ((byteBits b).reverse).foldl crc32Step r) reg

/-- The IEEE 802.3 frame check sequence (R67). -/
def crc32 (bs : List Byte) : Nat := crc32Run 0xFFFFFFFF bs ^^^ 0xFFFFFFFF

/-- CRC-32 of a downlink payload over the destination short ID and the payload (R67). -/
def frameCrc32 (shortId : Nat) (payload : List Byte) : Nat :=
  crc32 ((natToBytes 3 shortId).reverse ++ payload)

/-! ### Scrambler (R59, R60) -/

/-- `n` scrambler bits from a 15-bit register. -/
def scramblerBits : Nat → Nat → List Bool
  | 0, _ => []
  | n + 1, reg =>
    let c := (reg.testBit 0) != (reg.testBit 14)
    c :: scramblerBits n ((reg * 2 + c.toNat) % 2 ^ 15)

def headerSeed : Nat := 0x1ACF

/-- The session seed (R60). -/
def sessionSeed (shortId : Nat) : Nat :=
  let v := (bitsOf shortId 0 15) ^^^ (bitsOf shortId 15 5 * 2 ^ 10)
  if v = 0 then 0x7FFF else v

def xorBits (a b : List Bool) : List Bool := List.zipWith (fun x y => x != y) a b

def scramble (seed : Nat) (bs : List Bool) : List Bool := xorBits bs (scramblerBits bs.length seed)

/-! ### Profiles (R46, R121) -/

/-- A profile of Table 02-3: width in bins, 4-GFSK, code-rate index (0: 1/2, 1: 2/3, 2: 3/4), lifting size, air class,
and the modulation index as a fraction of 6 and BT in tenths. -/
structure Profile where
  width : Nat
  four : Bool
  h6 : Nat
  bt10 : Nat
  rate : Nat
  z : Nat
  airClass : Nat
  deriving DecidableEq, Repr

def profiles : List Profile := [
  ⟨1, false, 3, 5, 0, 16, 0⟩, ⟨1, false, 3, 5, 0, 64, 0⟩, ⟨1, false, 6, 5, 0, 32, 1⟩, ⟨1, true, 2, 5, 1, 16, 2⟩,
  ⟨2, false, 3, 5, 0, 32, 3⟩, ⟨2, false, 3, 5, 1, 64, 3⟩, ⟨2, true, 2, 5, 1, 64, 4⟩, ⟨2, true, 2, 5, 2, 128, 4⟩,
  ⟨4, false, 3, 5, 0, 64, 5⟩, ⟨4, true, 2, 5, 1, 64, 6⟩, ⟨4, true, 2, 5, 2, 128, 6⟩, ⟨8, false, 3, 5, 0, 128, 7⟩,
  ⟨8, true, 2, 5, 2, 128, 8⟩, ⟨1, false, 3, 3, 0, 16, 9⟩, ⟨8, true, 2, 3, 1, 128, 10⟩, ⟨1, true, 2, 3, 0, 16, 11⟩]

def profileOf (p : Nat) : Profile := profiles.getD (p % 16) ⟨1, false, 3, 5, 0, 16, 0⟩

/-- The lowest profile of an air class: its width, modulation and symbol rate are the class's. -/
def classProfile (a : Nat) : Profile := (profiles.find? fun p => p.airClass == a).getD (profileOf 0)

/-- Is this an air class number of Table 04-5? -/
def airClassValid (a : Nat) : Bool := decide (a < 12)

/-- Bins of a channel ID (Table 02-1). -/
def channelWidth (id : BitVec 16) : Nat := 2 ^ (bitsOf id.toNat 14 2)
def channelFirst (id : BitVec 16) : Nat := bitsOf id.toNat 0 13

/-- Symbol period T in units of 1/384 ns: 1/9,600 s for one bin (R46). -/
def symbolTime (width : Nat) : Nat := 40000000 / width

/-- Units of burst time in 1 ns. [DEDUCED: log 78] -/
def unitsPerNs : Nat := 384

/-! ### LDPC codes (R61 to R65) -/

def systematicColumns (rate : Nat) : Nat := 8 * (rate + 1)

/-- Systematic mask of row `i` at code-rate index `rate` (Table 02-6): the longer masks extend the shorter. -/
def maskTable : List (List Nat) := [
  [0x0B, 0x16, 0x2C, 0x58, 0xB0, 0x61, 0xC2, 0x85],
  [0x250B, 0x4A16, 0x942C, 0x2958, 0x52B0, 0xA461, 0x49C2, 0x9285],
  [0x19250B, 0x324A16, 0x64942C, 0xC82958, 0x9152B0, 0x23A461, 0x4649C2, 0x8C9285]]

def maskRow (rate i : Nat) : Nat := (maskTable.getD rate []).getD i 0

/-- Shift of a systematic entry (R63). -/
def ldpcShift (i j z : Nat) : Nat := (17 * i * j + 5 * i + 3 * j + 1) % z

/-- Entries of base row `i` as (column, shift), in ascending column (R62, R63). -/
def baseRow (rate z i : Nat) : List (Nat × Nat) :=
  let kb := systematicColumns rate
  let sys := (List.range kb).filterMap fun j =>
    if (maskRow rate i).testBit j then some (j, ldpcShift i j z) else none
  let p0 := if i = 0 ∨ i = 7 then [(kb, 1)] else if i = 4 then [(kb, 0)] else []
  let ps := (List.range 7).filterMap fun m' =>
    let m := m' + 1
    if i = m - 1 ∨ i = m then some (kb + m, 0) else none
  sys ++ p0 ++ ps

/-- rot(v, s)[r] = v[(r + s) mod Z] (R64). -/
def rotBlock (v : List Bool) (s : Nat) : List Bool := v.drop s ++ v.take s

def xorAll (z : Nat) (vs : List (List Bool)) : List Bool := vs.foldl xorBits (List.replicate z false)

/-- Row sum lam[i] of the systematic part (R64). -/
def rowSum (rate z : Nat) (u : List (List Bool)) (i : Nat) : List Bool :=
  xorAll z ((List.range (systematicColumns rate)).filterMap fun j =>
    if (maskRow rate i).testBit j then some (rotBlock (u.getD j []) (ldpcShift i j z)) else none)

/-- The eight parity blocks (R64). -/
def ldpcParity (rate z : Nat) (u : List (List Bool)) : List (List Bool) :=
  let lam := (List.range 8).map (rowSum rate z u)
  let l (i : Nat) : List Bool := lam.getD i []
  let p0 := xorAll z lam
  let p1 := xorBits (l 0) (rotBlock p0 1)
  let p2 := xorBits (l 1) p1
  let p3 := xorBits (l 2) p2
  let p4 := xorBits (l 3) p3
  let p5 := xorBits (xorBits (l 4) p4) p0
  let p6 := xorBits (l 5) p5
  let p7 := xorBits (l 6) p6
  [p0, p1, p2, p3, p4, p5, p6, p7]

/-- Cut a list into `n` blocks of `z`. -/
def blocksOf (z : Nat) : Nat → List Bool → List (List Bool)
  | 0, _ => []
  | n + 1, bs => bs.take z :: blocksOf z n (bs.drop z)

/-- The codeword of `k_b × Z` information bits (R64). -/
def ldpcEncode (rate z : Nat) (info : List Bool) : List Bool :=
  let u := blocksOf z (systematicColumns rate) info
  info ++ (ldpcParity rate z u).flatten

/-- Information bits per block (R57). -/
def blockBits (rate z : Nat) : Nat := systematicColumns rate * z

/-- Number of code blocks for K′ bits (R57). -/
def blockCount (rate z bits : Nat) : Nat := (bits + blockBits rate z - 1) / blockBits rate z

/-- Carried systematic bits of block `b` of C for K′ bits (R57). -/
def carriedBits (rate z bits b : Nat) : Nat := min (blockBits rate z) (bits - b * blockBits rate z)

/-- Transmitted bits of one block: carried systematic bits, then 8Z parity bits (R57). -/
def transmittedBits (rate z bits b : Nat) : Nat := carriedBits rate z bits b + 8 * z

/-- Offset of block `b`'s first bit among the payload's transmitted bits. -/
def blockOffset (rate z bits b : Nat) : Nat :=
  ((List.range b).map (transmittedBits rate z bits)).foldl (· + ·) 0

/-- All transmitted payload bits, before scrambling (R57). -/
def encodePayload (rate z : Nat) (info : List Bool) : List Bool :=
  let k := blockBits rate z
  (List.range (blockCount rate z info.length)).flatMap fun b =>
    let carried := (info.drop (b * k)).take k
    let word := ldpcEncode rate z (carried ++ List.replicate (k - carried.length) false)
    carried ++ word.drop k

/-- The 128 transmitted bits of a header, before scrambling (R65). -/
def encodeHeader (h : List Bool) : List Bool :=
  let word := ldpcEncode 0 16 (List.replicate 64 false ++ h)
  (word.drop 64).take 128

/-! ### Header (R52) -/

/-- Header bits [63:16] for the given fields; the reserved bits are sent as 0. -/
def headerUpper (shortId profile lenM1 seq : Nat) (b23 b22 : Bool) : Nat :=
  shortId % 2 ^ 20 * 2 ^ 28 + profile % 16 * 2 ^ 24 + lenM1 % 256 * 2 ^ 16 + seq % 256 * 2 ^ 8
    + b23.toNat * 2 ^ 7 + b22.toNat * 2 ^ 6 + 1

/-- The 64 header bits, bit 63 first, with HCRC (R53). -/
def headerBits (upper : Nat) : List Bool :=
  let bs := natBits 48 upper
  bs ++ natBits 16 (hcrc bs)

/-! ### Lengths and times (R57, R58, R66) -/

/-- Transmitted payload bits of `n` information bits. -/
def payloadBits (rate z bits : Nat) : Nat := bits + 8 * z * blockCount rate z bits

/-- Data symbols D_s of a burst of payload length L in a profile (R58). -/
def uplinkDataSymbols (p : Profile) (len : Nat) : Nat :=
  let d := 128 + payloadBits p.rate p.z (8 * (len + 3))
  if p.four then d / 2 else d

/-- Data symbols of a downlink frame: rate 1/2 at the profile's Z, CRC-32 (R66). -/
def downlinkDataSymbols (p : Profile) (len : Nat) : Nat :=
  let d := 128 + payloadBits 0 p.z (8 * (len + 4))
  if p.four then d / 2 else d

/-- Symbols from the first data symbol to the last, pilots included (R50, R58). -/
def symbolsWithPilots (ds : Nat) : Nat := ds + 8 * ((ds - 1) / 64)

/-- Symbols of a whole downlink frame, ramp-down included: ramp 4, preamble 16, sync 24, data and pilots, ramp-down 4. -/
def downlinkSymbols (ds : Nat) : Nat := 48 + symbolsWithPilots ds

/-- Samples the Sluice expects: two per symbol (Table 18-2, check 3). -/
def downlinkSamples (ds : Nat) : Nat := 2 * downlinkSymbols ds

/-- Number of data symbols, of the first `ds`, that end no later than `span` units after the sync word (R50). -/
def symbolsWithin (t ds span : Nat) : Nat :=
  min ds (let n := span / t; n - 8 * (n / 72) - (n % 72 - 64))

/-- Symbol values of a coded bit string (Table 02-2, R51). -/
def mapSymbols (four : Bool) : List Bool → List Int
  | [] => []
  | [b] => [if b then -1 else 1]
  | a :: b :: rest =>
    if four then (if a then (if b then -3 else -1) else (if b then 3 else 1)) :: mapSymbols four rest
    else (if a then -1 else 1) :: mapSymbols four (b :: rest)

def pilotBlock (four : Bool) : List Int :=
  let v : Int := if four then 3 else 1
  [v, v, -v, -v, v, v, -v, -v]

/-- Insert a pilot block after each data symbol numbered 63 modulo 64 but the last (R50). -/
def insertPilots (four : Bool) (n : Nat) : List Int → List Int
  | [] => []
  | [x] => [x]
  | x :: y :: rest =>
    if n % 64 = 63 then x :: (pilotBlock four ++ insertPilots four (n + 1) (y :: rest))
    else x :: insertPilots four (n + 1) (y :: rest)

def alternation (four : Bool) (n : Nat) : List Int :=
  let v : Int := if four then 3 else 1
  (List.range n).map fun i => if i % 2 = 0 then v else -v

/-- Symbols of a 24-bit sync word, bit 23 first (R49). -/
def syncSymbols (four : Bool) (w : Nat) : List Int :=
  let v : Int := if four then 3 else 1
  (natBits 24 w).map fun b => if b then -v else v

def uplinkSync : Nat := 0x5EC24B
def downlinkSync : Nat := 0x3A9E71

/-- All symbols of a downlink frame but the ramp-down (R66). -/
def downlinkFrameSymbols (shortId prof lenM1 seq : Nat) (more command : Bool) (body : List Byte) : List Int :=
  let p := profileOf prof
  let header := scramble headerSeed (encodeHeader (headerBits (headerUpper shortId prof lenM1 seq more command)))
  let payload := scramble (sessionSeed shortId) (encodePayload 0 p.z (bytesBits body))
  alternation p.four 20 ++ syncSymbols p.four downlinkSync
    ++ insertPilots p.four 0 (mapSymbols p.four header ++ mapSymbols p.four payload)

end Sys2Proof.Machine
end

