-- ==== Sys2Proof/Machine/Numbers.lean ====
section
/-! DEFINITION. The eleven storage formats, the one rounding rule, overflow and conversion (R287 to R295), and exact
arithmetic with single rounding, the transcendental functions included (R264). -/

namespace Sys2Proof.Machine

/-- A number as every unit reads it: a finite value is (−1)^neg × m × 2^e. -/
inductive Num where
  | nan
  | inf (neg : Bool)
  | fin (neg : Bool) (m : Nat) (e : Int)
  deriving DecidableEq, Repr

def Num.zero : Num := .fin false 0 0

/-- 2^e as a numerator and a denominator. -/
def pow2Num (e : Int) : Nat := 2 ^ e.toNat
def pow2Den (e : Int) : Nat := 2 ^ (-e).toNat

def Num.isNeg : Num → Bool
  | .nan => false
  | .inf n => n
  | .fin n _ _ => n

/-- Magnitude of a finite number as a fraction. -/
def Num.mag : Num → Nat × Nat
  | .fin _ m e => (m * pow2Num e, pow2Den e)
  | _ => (0, 1)

/-- A finite number as a signed fraction. -/
def Num.frac (x : Num) : Int × Nat := (if x.isNeg then -(x.mag.1 : Int) else (x.mag.1 : Int), x.mag.2)

def Num.isZero : Num → Bool
  | .fin _ m _ => m == 0
  | _ => false

def Num.isNan : Num → Bool
  | .nan => true
  | _ => false

def Num.ofInt (v : Int) : Num := .fin (decide (v < 0)) v.natAbs 0

/-! ### Floating layouts (Table 09-2) -/

/-- Exponent bits, fraction bits, bias; `infinite` is false for FP8-E4M3 alone. -/
structure FloatFmt where
  expBits : Nat
  fracBits : Nat
  bias : Nat
  infinite : Bool := true
  nanCode : Nat
  deriving DecidableEq, Repr

def e4m3 : FloatFmt := { expBits := 4, fracBits := 3, bias := 7, infinite := false, nanCode := 0x7F }
def e5m2 : FloatFmt := { expBits := 5, fracBits := 2, bias := 15, nanCode := 0x7E }
def fp16 : FloatFmt := { expBits := 5, fracBits := 10, bias := 15, nanCode := 0x7E00 }
def bf16 : FloatFmt := { expBits := 8, fracBits := 7, bias := 127, nanCode := 0x7FC0 }
def fp32 : FloatFmt := { expBits := 8, fracBits := 23, bias := 127, nanCode := 0x7FC00000 }

/-- Format codes of Table 06-4: the floating ones. -/
def floatFmt (code : Nat) : Option FloatFmt :=
  match code with
  | 5 => some e4m3 | 6 => some e5m2 | 7 => some fp16 | 8 => some bf16 | 9 => some fp32 | _ => none

/-- Read a floating code (R290, R291). -/
def FloatFmt.decode (f : FloatFmt) (v : Nat) : Num :=
  let neg := v.testBit (f.expBits + f.fracBits)
  let e := bitsOf v f.fracBits f.expBits
  let fr := bitsOf v 0 f.fracBits
  let top := e == 2 ^ f.expBits - 1
  if top && f.infinite then (if fr = 0 then .inf neg else .nan)
  else if top && fr == 2 ^ f.fracBits - 1 then .nan
  else if e = 0 then .fin neg fr (1 - (f.bias : Int) - f.fracBits)
  else .fin neg (2 ^ f.fracBits + fr) ((e : Int) - f.bias - f.fracBits)

/-- Exponent of the unit in the last place of the format at binary exponent `e`. -/
def FloatFmt.ulp (f : FloatFmt) (e : Int) : Int := max e (1 - (f.bias : Int)) - f.fracBits

/-- Binary exponent of a positive fraction: 2^E ≤ n/d < 2^(E+1). -/
def binExp (n d : Nat) : Int :=
  let g := (Nat.log2 n : Int) - Nat.log2 d
  if pow2Num g * d ≤ n * pow2Den g then g else g - 1

/-- The largest finite magnitude: its integer multiple of, and exponent of, its last place. -/
def FloatFmt.largest (f : FloatFmt) : Nat × Int :=
  if f.infinite then (2 ^ (f.fracBits + 1) - 1, (2 ^ f.expBits - 2 : Nat) - (f.bias : Int) - f.fracBits)
  else (2 ^ (f.fracBits + 1) - 2, (2 ^ f.expBits - 1 : Nat) - (f.bias : Int) - f.fracBits)

/-- Round a magnitude n/d to the format with an unbounded exponent range: nearest, ties away from zero (R292). -/
def FloatFmt.roundMag (f : FloatFmt) (n d : Nat) : Nat × Int :=
  if n = 0 then (0, 0)
  else
    let u := f.ulp (binExp n d)
    let q := 2 * n * pow2Den u / (d * pow2Num u)
    ((q + 1) / 2, u)

/-- m × 2^e exceeds the largest finite value (R294). -/
def FloatFmt.overflows (f : FloatFmt) (m : Nat) (e : Int) : Bool :=
  let (l, k) := f.largest
  decide (l * pow2Num k * pow2Den e < m * pow2Num e * pow2Den k)

/-- Round a signed fraction to the format, overflow handled by R294: `ieee` selects ±∞. -/
def FloatFmt.round (f : FloatFmt) (ieee neg : Bool) (n d : Nat) : Num :=
  let (m, e) := f.roundMag n d
  if f.overflows m e then
    (if ieee && f.infinite then .inf neg else .fin neg f.largest.1 f.largest.2)
  else .fin neg m e

/-- The code of a number the format holds exactly. -/
def FloatFmt.encode (f : FloatFmt) (x : Num) : Nat :=
  let sign (neg : Bool) : Nat := neg.toNat * 2 ^ (f.expBits + f.fracBits)
  match x with
  | .nan => f.nanCode
  | .inf neg => sign neg + (2 ^ f.expBits - 1) * 2 ^ f.fracBits
  | .fin neg m e =>
    if m = 0 then sign neg
    else
      let (n, d) := (Num.fin neg m e).mag
      let E := binExp n d
      let u := f.ulp E
      let q := n * pow2Den u / (d * pow2Num u)
      if q < 2 ^ f.fracBits then sign neg + q
      else sign neg + (E + f.bias).toNat * 2 ^ f.fracBits + (q - 2 ^ f.fracBits)

/-- Narrow a number to a floating format (R292, R294, R295). -/
def FloatFmt.narrow (f : FloatFmt) (ieee : Bool) (x : Num) : Num :=
  match x with
  | .nan => .nan
  | .inf neg => if f.infinite then .inf neg else .fin neg f.largest.1 f.largest.2
  | .fin neg m e =>
    let (n, d) := (Num.fin neg m e).mag
    f.round ieee neg n d

/-! ### Integers (Table 09-1) -/

/-- Round a fraction to an integer, ties away from zero (R292). -/
def roundMagInt (n d : Nat) : Nat := (2 * n + d) / (2 * d)

def Num.roundInt : Num → Int
  | .fin neg m e =>
    let r := roundMagInt (m * pow2Num e) (pow2Den e)
    if neg then -(r : Int) else r
  | _ => 0

/-- The range written to an integer format: INT4 and INT8 never write −8 or −128 (R288). -/
def intRange (code : Nat) : Int × Int :=
  match code with
  | 0 => (-7, 7) | 1 => (-127, 127) | 2 => (0, 255) | 3 => (-32768, 32767) | 10 => (-32768, 32767)
  | _ => (-2147483648, 2147483647)

def clampInt (r : Int × Int) (v : Int) : Int := if v < r.1 then r.1 else if r.2 < v then r.2 else v

/-- Bits of an element of a format. -/
def fmtBits (code : Nat) : Nat :=
  match code with
  | 0 => 4 | 1 => 8 | 2 => 8 | 3 => 16 | 4 => 32 | 5 => 8 | 6 => 8 | 7 => 16 | 8 => 16 | 9 => 32 | 10 => 32 | _ => 8

def fmtValid (code : Nat) : Bool := decide (code ≤ 10)

/-- Is the format an integer format other than CINT16? -/
def fmtInt (code : Nat) : Bool := decide (code ≤ 4)

/-- Overflow option of a floating format: JOB_MODE.IEEE_OVF bits FP16, BF16, FP32, FP8-E5M2 (R294). -/
def ieeeFor (opt : Nat) (code : Nat) : Bool :=
  match code with
  | 7 => opt.testBit 0 | 8 => opt.testBit 1 | 9 => opt.testBit 2 | 6 => opt.testBit 3 | _ => false

/-- Read an element code as a number; escape codes of INT8 and INT4 read as 0 (R288). CINT16 is read by its parts. -/
def readElem (code v : Nat) : Num :=
  match floatFmt code with
  | some f => f.decode v
  | none =>
    match code with
    | 0 => if v % 16 = 8 then .zero else .ofInt (toSigned 4 v)
    | 1 => if v % 256 = 128 then .zero else .ofInt (toSigned 8 v)
    | 2 => .ofInt (v % 256 : Nat)
    | 3 => .ofInt (toSigned 16 v)
    | _ => .ofInt (toSigned 32 v)

/-- What a narrowing write was (R306): 0 neither, 1 saturation, 2 underflow. -/
def narrowClass (code : Nat) (x : Num) : Nat :=
  match floatFmt code with
  | some f =>
    match x with
    | .nan => 0
    | .inf _ => if f.infinite then 0 else 1
    | .fin neg m e =>
      let (n, d) := (Num.fin neg m e).mag
      let (q, u) := f.roundMag n d
      if f.overflows q u then 1 else if q = 0 && m != 0 then 2 else 0
  | none =>
    match x with
    | .nan => 0
    | .inf _ => 1
    | .fin _ m _ =>
      let r := x.roundInt
      if clampInt (intRange code) r ≠ r then 1 else if r = 0 && m != 0 && code != 2 then 2 else 0

/-- The code written for a number in a format (R288, R292 to R295). -/
def writeElem (code : Nat) (opt : Nat) (x : Num) : Nat :=
  match floatFmt code with
  | some f => f.encode (f.narrow (ieeeFor opt code) x)
  | none =>
    let v := match x with
      | .inf neg => if neg then (intRange code).1 else (intRange code).2
      | _ => clampInt (intRange code) x.roundInt
    ofSigned (fmtBits code) v

/-! ### Floating arithmetic with one rounding (R264) -/

/-- Round a signed fraction to FP32; `zneg` is the sign of an exact zero. -/
def round32 (ieee : Bool) (v : Int) (d : Nat) (zneg : Bool) : Num :=
  if v = 0 then .fin zneg 0 0 else fp32.round ieee (decide (v < 0)) v.natAbs d

def addFrac (a b : Int × Nat) : Int × Nat := (a.1 * b.2 + b.1 * a.2, a.2 * b.2)

/-- A + B rounded once. -/
def fadd (ieee : Bool) (a b : Num) : Num :=
  match a, b with
  | .nan, _ | _, .nan => .nan
  | .inf x, .inf y => if x == y then .inf x else .nan
  | .inf x, _ => .inf x
  | _, .inf y => .inf y
  | .fin _ _ _, .fin _ _ _ =>
    let s := addFrac a.frac b.frac
    round32 ieee s.1 s.2 (a.isNeg && b.isNeg)

def fneg : Num → Num
  | .nan => .nan
  | .inf n => .inf (!n)
  | .fin n m e => .fin (!n) m e

def fsub (ieee : Bool) (a b : Num) : Num := fadd ieee a (fneg b)

/-- A × B exactly, specials as in Table 08-2. -/
def mulExact (a b : Num) : Num :=
  match a, b with
  | .nan, _ | _, .nan => .nan
  | .inf x, y => if y.isZero then .nan else .inf (x != y.isNeg)
  | x, .inf y => if x.isZero then .nan else .inf (x.isNeg != y)
  | .fin n1 m1 e1, .fin n2 m2 e2 => .fin (n1 != n2) (m1 * m2) (e1 + e2)

/-- Narrow to FP32. -/
def fround (ieee : Bool) (x : Num) : Num := fp32.narrow ieee x

def fmul (ieee : Bool) (a b : Num) : Num := fround ieee (mulExact a b)

/-- A × B + C rounded once. -/
def fmadd (ieee : Bool) (a b c : Num) : Num := fadd ieee (mulExact a b) c

/-- Order of two numbers that are not NaN: −∞ < finite < +∞, −0 = +0. -/
def flt (a b : Num) : Bool :=
  match a, b with
  | .nan, _ | _, .nan => false
  | .inf x, .inf y => x && !y
  | .inf x, _ => x
  | _, .inf y => !y
  | .fin _ _ _, .fin _ _ _ => decide (a.frac.1 * b.frac.2 < b.frac.1 * a.frac.2)

def feq (a b : Num) : Bool :=
  match a, b with
  | .nan, _ | _, .nan => false
  | _, _ => !flt a b && !flt b a

/-- MIN and MAX: NaN if either is NaN, −0 < +0. -/
def fmin (a b : Num) : Num :=
  if a.isNan || b.isNan then .nan else if flt a b then a else if flt b a then b else if a.isNeg then a else b

def fmax (a b : Num) : Num :=
  if a.isNan || b.isNan then .nan else if flt a b then b else if flt b a then a else if a.isNeg then b else a

def fabs : Num → Num
  | .nan => .nan
  | .inf _ => .inf false
  | .fin _ m e => .fin false m e

/-- A / B rounded once. -/
def fdiv (ieee : Bool) (a b : Num) : Num :=
  match a, b with
  | .nan, _ | _, .nan => .nan
  | .inf x, y => (match y with | .inf _ => .nan | _ => .inf (x != y.isNeg))
  | x, .inf y => .fin (x.isNeg != y) 0 0
  | .fin n1 _ _, .fin n2 m2 _ =>
    if m2 = 0 then (if a.isZero then .nan else .inf (n1 != n2))
    else
      let p := a.mag
      let q := b.mag
      if p.1 = 0 then .fin (n1 != n2) 0 0 else fp32.round ieee (n1 != n2) (p.1 * q.2) (p.2 * q.1)

/-! ### Square roots and transcendental functions -/

/-- Integer square root by bits: `n` bits of result. -/
def isqrt (v : Nat) : Nat → Nat → Nat
  | 0, r => r
  | n + 1, r => if (r + 2 ^ n) * (r + 2 ^ n) ≤ v then isqrt v n (r + 2 ^ n) else isqrt v n r

/-- √(n/d), or its reciprocal, as a fraction truncated at 200 bits below its leading part: enough bits that rounding to
FP32 is that of the exact root. -/
def sqrtFrac (n d : Nat) : Nat × Nat :=
  let w := 2 ^ 800
  (isqrt (n * w / d) 600 0, 2 ^ 400)

def fsqrt (ieee : Bool) (a : Num) : Num :=
  match a with
  | .nan => .nan
  | .inf neg => if neg then .nan else .inf false
  | .fin neg m _ =>
    if m = 0 then a else if neg then .nan
    else
      let p := sqrtFrac a.mag.1 a.mag.2
      fp32.round ieee false p.1 p.2

def frsqrt (ieee : Bool) (a : Num) : Num :=
  match a with
  | .nan => .nan
  | .inf neg => if neg then .nan else .fin false 0 0
  | .fin neg m _ =>
    if m = 0 then .inf neg else if neg then .nan
    else
      let p := sqrtFrac a.mag.2 a.mag.1
      fp32.round ieee false p.1 p.2

/-- Fixed-point fraction bits of the series below. [DEDUCED: log 209] -/
def fixBits : Nat := 320

/-- Σ r^k / k! for k ≤ n, r in fixed point, by Horner's rule. [DEDUCED: log 209] -/
def expSeries (r : Int) : Nat → Nat → Int → Int
  | 0, _, acc => acc
  | fuel + 1, k, acc => expSeries r fuel (k - 1) (2 ^ fixBits + acc * r / (k * 2 ^ fixBits : Nat))

/-- 2 Σ t^(2i+1) / (2i+1) in fixed point. -/
def atanhSeries (t t2 : Int) : Nat → Nat → Int → Int
  | 0, _, acc => 2 * acc
  | fuel + 1, k, acc => atanhSeries (t * t2 / (2 ^ fixBits : Nat)) t2 fuel (k + 2) (acc + t / (k : Int))

/-- ln(n/d) for 1 ≤ n/d ≤ 2, fixed point. [DEDUCED: log 209] -/
def lnUnit (n d : Nat) : Int :=
  let t : Int := (((n - d) * 2 ^ fixBits / (n + d) : Nat) : Int)
  atanhSeries t (t * t / (2 ^ fixBits : Nat)) 110 1 0

def ln2Fix : Int := lnUnit 2 1

/-- e^x for a fraction v/d with |x| ≤ 1,024, as a fraction: x = k ln 2 + r, the series in r, scaled by 2^k. [DEDUCED: log 209] -/
def expFrac (v : Int) (d : Nat) : Nat × Nat :=
  let x := v * 2 ^ fixBits / d
  let k := x / ln2Fix
  let r := x - k * ln2Fix
  let s := expSeries r 90 90 (2 ^ fixBits)
  (s.toNat * pow2Num k, 2 ^ fixBits * pow2Den k)

/-- Beyond ±1,024 an exponential of FP32 overflows or underflows whatever its exact value. -/
def clampArg (a : Int × Nat) : Int × Nat :=
  if 1024 * (a.2 : Int) < a.1 then (1024, 1) else if a.1 < -1024 * (a.2 : Int) then (-1024, 1) else a

def fexp (ieee : Bool) (a : Num) : Num :=
  match a with
  | .nan => .nan
  | .inf neg => if neg then .fin false 0 0 else .inf false
  | .fin _ _ _ =>
    let c := clampArg a.frac
    let p := expFrac c.1 c.2
    fp32.round ieee false p.1 p.2

def flog (ieee : Bool) (a : Num) : Num :=
  match a with
  | .nan => .nan
  | .inf neg => if neg then .nan else .inf false
  | .fin neg m _ =>
    if m = 0 then .inf true else if neg then .nan
    else
      let p := a.mag
      let k := binExp p.1 p.2
      let v := k * ln2Fix + lnUnit (p.1 * pow2Den k) (p.2 * pow2Num k)
      round32 ieee v (2 ^ fixBits) false

def fsigmoid (ieee : Bool) (a : Num) : Num :=
  match a with
  | .nan => .nan
  | .inf neg => if neg then .fin false 0 0 else .fin false 1 0
  | .fin _ _ _ =>
    let c := clampArg a.frac
    let p := expFrac c.1 c.2
    fp32.round ieee false p.1 (p.1 + p.2)

def ftanh (ieee : Bool) (a : Num) : Num :=
  match a with
  | .nan => .nan
  | .inf neg => .fin neg 1 0
  | .fin neg m _ =>
    if m = 0 then a
    else
      let c := clampArg a.frac
      let p := expFrac (2 * c.1.natAbs) c.2
      fp32.round ieee neg (p.1 - p.2) (p.1 + p.2)

/-- A rounded to an integral number, ties away from zero; ±0, ±∞ and NaN unchanged. -/
def frint (a : Num) : Num :=
  match a with
  | .fin neg m e => if m = 0 then a else .fin neg (roundMagInt (m * pow2Num e) (pow2Den e)) 0
  | _ => a

/-- A rounded to INT32, ties away, saturated; NaN is 0 (CVT_I). -/
def cvtInt (a : Num) : Int :=
  match a with
  | .nan => 0
  | .inf neg => if neg then -2147483648 else 2147483647
  | .fin _ _ _ => clampInt (-2147483648, 2147483647) a.roundInt

/-- FP32 bits of a number. -/
def toFp32 (a : Num) : Nat := fp32.encode a
def ofFp32 (v : Nat) : Num := fp32.decode v

/-! ### Trees and scales (R227, R304, R305) -/

/-- Pairwise tree over a power-of-two list. -/
def pairUp {α : Type} (f : α → α → α) : List α → List α
  | x :: y :: rest => f x y :: pairUp f rest
  | l => l

def treeFold {α : Type} (f : α → α → α) : Nat → List α → List α
  | 0, l => l
  | n + 1, l => treeFold f n (pairUp f l)

/-- The pairwise tree over 32 places of R227; absent products enter as +0. [DEDUCED: log 105] -/
def adderTree (ieee : Bool) (xs : List Num) : Num :=
  let full := (xs ++ List.replicate (32 - xs.length) Num.zero).take 32
  (treeFold (fadd ieee) 5 full).headD Num.zero

def fone : Num := .fin false 1 0

/-- Largest code magnitude of a target format. -/
def qMax (fmt : Nat) : Option Nat :=
  match fmt with | 1 => some 127 | 0 => some 7 | 2 => some 255 | 5 => some 448 | 6 => some 57344 | _ => none

def minNormal : Num := .fin false 1 (-126)

/-- A fraction as a scale: rounded once to FP32, at least 2^−126. -/
def scaleOf (n d : Nat) : Num :=
  let v := round32 false n d false
  if flt v minNormal then minNormal else v

/-- Scale, zero point and whether the group has zero range (Table 09-7, R305). -/
def groupScale (fmt : Nat) (xs : List Num) : Num × Nat × Bool :=
  let q := (qMax fmt).getD 1
  let fin := xs.filter fun x => match x with | .fin _ _ _ => true | _ => false
  let lo := fin.foldl fmin (fin.headD Num.zero)
  let hi := fin.foldl fmax (fin.headD Num.zero)
  let a := fin.foldl (fun m x => fmax m (fabs x)) Num.zero
  let zero := feq lo hi
  if zero && lo.isZero then (fone, 0, true)
  else if fmt = 2 then
    if zero then (scaleOf a.mag.1 (a.mag.2 * 255), if lo.isNeg then 255 else 0, true)
    else
      let l := if lo.isNeg then lo else Num.zero
      let h := if hi.isNeg then Num.zero else hi
      let span := addFrac h.frac (-l.frac.1, l.frac.2)
      let sc := scaleOf span.1.toNat (span.2 * 255)
      let z := roundMagInt (l.mag.1 * sc.mag.2) (l.mag.2 * sc.mag.1)
      (sc, min 255 z, false)
  else (scaleOf a.mag.1 (a.mag.2 * q), 0, zero)

end Sys2Proof.Machine
end

