-- ==== Sys2Proof/Machine/Trig.lean ====
section
/-! DEFINITION. Fixed-point π, sine, cosine, arc tangent and the normal distribution, with the fraction bits of the series in
Numbers.lean: what the phase of the modulator (R42 to R44) and of the detector (R90, R91, R97) is computed with. -/

namespace Sys2Proof.Machine

/-- 1 in fixed point. -/
def fixOne : Int := 2 ^ fixBits

def fixMul (a b : Int) : Int := a * b / fixOne
def fixDiv (a b : Int) : Int := if b = 0 then 0 else a * fixOne / b

/-- √v of a fixed-point number. -/
def fixSqrt (v : Int) : Int := (isqrt (v.toNat * 2 ^ fixBits) 700 0 : Nat)

/-- Euler's series of the arc tangent of b/a for |b| ≤ a: `r` is b²/(a² + b²), `t` the next term. -/
def atanSeries (r : Int) : Nat → Nat → Int → Int → Int
  | 0, _, _, acc => acc
  | fuel + 1, n, t, acc => atanSeries r fuel (n + 1) (fixMul t r * (2 * n + 2 : Nat) / (2 * n + 3 : Nat)) (acc + t)

/-- atan(b/a) for 0 ≤ b ≤ a, a > 0. -/
def atanUnit (b a : Nat) : Int :=
  let d : Int := ((a * a + b * b : Nat) : Int)
  atanSeries (fixDiv (b * b : Nat) d) 330 0 (fixDiv (a * b : Nat) d) 0

/-- π: 4 atan 1. -/
def piFix : Int := 4 * atanUnit 1 1

/-- arg(x + jy) in (−π, π], fixed point; the origin has none. -/
def argFix (x y : Int) : Int :=
  let a := x.natAbs
  let b := y.natAbs
  let first := if b ≤ a then atanUnit b a else piFix / 2 - atanUnit a b
  let half := if x < 0 then piFix - first else first
  if y < 0 then -half else half

/-- An angle taken to (−π, π]. -/
def wrapAngle (v : Int) : Int :=
  let r := v % (2 * piFix)
  if piFix < r then r - 2 * piFix else r

/-- Taylor series: each term is the last times −x² over the next two factors of the factorial. -/
def trigSeries (x2 : Int) : Nat → Nat → Int → Int → Int
  | 0, _, _, acc => acc
  | fuel + 1, k, t, acc => trigSeries x2 fuel (k + 2) (-(fixMul t x2) / ((k + 1) * (k + 2) : Nat)) (acc + t)

def sinFix (v : Int) : Int := let x := wrapAngle v; trigSeries (fixMul x x) 60 1 x 0
def cosFix (v : Int) : Int := let x := wrapAngle v; trigSeries (fixMul x x) 60 0 fixOne 0

/-- e^x in fixed point. -/
def expFix (x : Int) : Int :=
  let p := expFrac x (2 ^ fixBits)
  ((p.1 * 2 ^ fixBits / p.2 : Nat) : Int)

/-- Density of the standard normal distribution. -/
def normalPdf (x : Int) : Int := fixDiv (expFix (-(fixMul x x) / 2)) (fixSqrt (2 * piFix))

/-- Σ x^(2n+1) / (1·3·…·(2n+1)). -/
def oddSeries (x2 : Int) : Nat → Nat → Int → Int → Int
  | 0, _, _, acc => acc
  | fuel + 1, k, t, acc => oddSeries x2 fuel (k + 2) (fixMul t x2 / (k + 2 : Nat)) (acc + t)

/-- Q(x), the tail probability of the standard normal distribution (R42). -/
def tailFix (x : Int) : Int := fixOne / 2 - fixMul (normalPdf x) (oddSeries (fixMul x x) 400 1 x 0)

/-- An antiderivative of Q: x Q(x) − density(x). -/
def tailIntegral (x : Int) : Int := fixMul x (tailFix x) - normalPdf x

end Sys2Proof.Machine
end

