-- ==== Sys2Proof/Machine/Modem.lean ====
section
/-! DEFINITION. The modulator (R42 to R45): the Gaussian frequency pulse and its integral, the phase, the signalLevel, and the
samples of a signal at two per symbol. -/

namespace Sys2Proof.Machine

/-! ### The frequency pulse (R42) -/

/-- Symbol periods that the truncated pulse spans: 3 for BT = 0.5, 4 for BT = 0.3. -/
def pulseSpan (bt10 : Nat) : Nat := if bt10 = 3 then 4 else 3

/-- 2πB / √ln 2 per symbol period. -/
def pulseWidth (bt10 : Nat) : Int := fixDiv (2 * piFix * bt10 / 10) (fixSqrt ln2Fix)

/-- An antiderivative of the pulse at `h` half symbol periods from its centre, before scaling. -/
def pulseIntegral (bt10 : Nat) (h : Int) : Int :=
  tailIntegral (pulseWidth bt10 * (h - 1) / 2) - tailIntegral (pulseWidth bt10 * (h + 1) / 2)

/-- q at `h` half symbol periods from the pulse's centre (R43): 0 before the truncated pulse, 1/2 after it. -/
def pulsePhase (bt10 : Nat) (h : Int) : Int :=
  let l : Int := pulseSpan bt10
  if h ≤ -l then 0
  else if l ≤ h then fixOne / 2
  else
    let lo := pulseIntegral bt10 (-l)
    fixDiv (pulseIntegral bt10 h - lo) (pulseIntegral bt10 l - lo) / 2

/-! ### Phase and signalLevel (R43, R44) -/

/-- Symbol values are counted in 10^-8, so that a deviation from the steady offset can be told (R45). -/
def symbolUnit : Int := 100000000

/-- φ at sample `j`, that is at t = j T/2: 2πh Σ a_k q(t − kT − T/2). -/
def signalPhase (p : Profile) (as : List Int) (j : Nat) : Int :=
  let sum := ((List.range as.length).map fun k => as.getD k 0 * pulsePhase p.bt10 ((j : Int) - 2 * k - 1)).foldl (· + ·) 0
  fixMul (2 * piFix) (sum * p.h6 / (6 * symbolUnit))

/-- Amplitude A at sample `j` of a signal of `n` symbols: sin² over four ramp symbols, cos² over the four periods behind the last
symbol, 0 after them. -/
def signalLevel (n j : Nat) : Int :=
  let cos8 (i : Nat) : Int := cosFix (piFix * i / 8)
  if 2 * (n + 4) ≤ j then 0
  else if 2 * n ≤ j then (fixOne + cos8 (j - 2 * n)) / 2
  else if j < 8 then (fixOne - cos8 j) / 2
  else fixOne

/-- A fixed-point number to the nearest integer, ties away from zero (R292). -/
def fixRound (v : Int) : Int :=
  let m : Int := (roundMagInt v.natAbs (2 ^ fixBits) : Nat)
  if v < 0 then -m else m

/-- Samples of a whole signal at two per symbol: its symbols, in `symbolUnit`, then four periods that hold the last one's value. -/
def signalSamples (p : Profile) (amplitude : Nat) (as : List Int) : List (Int × Int) :=
  let held := as ++ List.replicate 4 (as.getLast?.getD 0)
  (List.range (2 * held.length)).map fun j =>
    let phi := signalPhase p held j
    let a := (amplitude : Int) * signalLevel as.length j
    (fixRound (fixMul a (cosFix phi)), fixRound (fixMul a (sinFix phi)))

/-! ### Emitted frames (R45, R66) -/

/-- Amplitude of the modulator (ch. 18, worked example of a frame). [DEDUCED: log 227] -/
def modulatorAmplitude : Nat := 16000

/-- A symbol value as emitted: its steady offset is nominal to within 1 %, and where in that range is left open (R45). [DESIGN CHOICE: log 260] -/
def emittedSymbol (channel start k : Nat) (a : Int) : Int :=
  a * (symbolUnit + ((Config.symbolOffset channel start k % 2000001 : Nat) : Int) - 1000000)

/-- Samples of a downlink frame on a channel from an instant on (R42 to R45, R66). -/
def emittedSamples (channel start shortId prof lenM1 seq : Nat) (more command : Bool) (body : List Byte) : List (Int × Int) :=
  let as := downlinkFrameSymbols shortId prof lenM1 seq more command body
  signalSamples (profileOf prof) modulatorAmplitude
    ((List.range as.length).map fun k => emittedSymbol channel start k (as.getD k 0))

/-! ### Waveform of coded bits (R99, RT_GFSK_MOD) -/

/-- Symbols of coded bits as data symbols from number `first` on, pilot blocks among them. -/
def dataSymbolValues (four : Bool) (first : Nat) (bits : List Bool) : List Int := insertPilots four first (mapSymbols four bits)

/-- The unit phasor of a waveform at sample `j`, fixed point. -/
def phasor (p : Profile) (as : List Int) (j : Nat) : Int × Int :=
  let phi := signalPhase p as j
  (cosFix phi, sinFix phi)

end Sys2Proof.Machine
end

