-- ==== Sys2Proof/Machine/MinSum.lean ====
section
/-! DEFINITION. The graph decoder's arithmetic (R159 to R168): layered min-sum with multiplier and offset per iteration
and edge class, syndrome, stopping and confirmation. Posteriors, messages and weight bytes are arrays indexed as the
spec indexes them. -/

namespace Sys2Proof.Machine

/-- A DEC_WEIGHTS instance as its bytes (Table 04-8). -/
abbrev WeightSet := Array Byte

def WeightSet.byte (w : WeightSet) (o : Nat) : Nat := (w.getD o 0).toNat
def WeightSet.iterMax (w : WeightSet) : Nat := w.byte 0
def WeightSet.edgeClasses (w : WeightSet) : Nat := w.byte 1
def WeightSet.fbIterMax (w : WeightSet) : Nat := w.byte 2
def WeightSet.fbOffset (w : WeightSet) : Nat := w.byte 3
def WeightSet.classOf (w : WeightSet) (entry : Nat) : Nat := w.byte (0x40 + entry)
def WeightSet.mult (w : WeightSet) (it cls : Nat) : Nat := w.byte (0x140 + 16 * it + cls)
def WeightSet.offset (w : WeightSet) (it cls : Nat) : Nat := w.byte (0x340 + 16 * it + cls)

/-- Multiplier and offset of an entry at an iteration: learned at full grade, plain offset min-sum at fallback (R171). -/
def WeightSet.multOffset (w : WeightSet) (fallback : Bool) (it entry : Nat) : Nat × Nat :=
  if fallback then (128, w.fbOffset)
  else (w.mult it (w.classOf entry), w.offset it (w.classOf entry))

def WeightSet.limit (w : WeightSet) (fallback : Bool) : Nat := if fallback then w.fbIterMax else w.iterMax

/-- Limit `x` to ±m (R161). -/
def limitTo (x : Int) (m : Nat) : Int := if x < -(m : Int) then -(m : Int) else if (m : Int) < x then m else x

def sgn (x : Int) : Int := if x < 0 then -1 else 1

/-- The least magnitude of a list, its first place, and the least magnitude elsewhere (R161). -/
def twoMins (qs : List Int) : Nat × Nat × Nat :=
  let step (a : Nat × Nat × Nat × Nat) (q : Int) : Nat × Nat × Nat × Nat :=
    let (m1, x, m2, i) := a
    if q.natAbs < m1 then (q.natAbs, i, m1, i + 1)
    else if q.natAbs < m2 then (m1, x, q.natAbs, i + 1) else (m1, x, m2, i + 1)
  let (m1, x, m2, _) := qs.foldl step (128, 0, 128, 0)
  (m1, x, m2)

/-- One message magnitude: multiply, round half up by the shift, subtract the offset, clamp to 0 to 127 (R161). -/
def messageMag (mult offset mag : Nat) : Nat := min 127 ((mult * mag + 64) / 128 - offset)

/-- New check messages of one row from its inputs `t = L − R` and each edge's multiplier and offset (R161). -/
def rowMessages (ts : List Int) (mo : List (Nat × Nat)) : List Int :=
  let qs := ts.map fun t => limitTo t 127
  let (m1, x, m2) := twoMins qs
  let s := qs.foldl (fun a q => a * sgn q) 1
  (List.range qs.length).map fun e =>
    let mag := if e = x then m2 else m1
    let (m, o) := mo.getD e (128, 0)
    s * sgn (qs.getD e 0) * (messageMag m o mag : Int)

/-- Posteriors and check messages of a codeword in decoding. -/
structure Codeword where
  post : Array Int
  msg : Array Int

/-- Entries of layer `i` with their number in CLASS_MAP order: (number, column, shift). -/
def layerEntries (rate z : Nat) : List (List (Nat × Nat × Nat)) :=
  let rows := (List.range 8).map (baseRow rate z)
  ((List.range 8).map fun i =>
    let first := ((rows.take i).map List.length).foldl (· + ·) 0
    (List.range (rows.getD i []).length).map fun n =>
      let e := (rows.getD i []).getD n (0, 0)
      (first + n, e.1, e.2))

/-- Update one row of a layer. -/
def updateRow (w : WeightSet) (fallback : Bool) (z it r : Nat) (es : List (Nat × Nat × Nat)) (c : Codeword) :
    Codeword :=
  let at' (e : Nat × Nat × Nat) : Nat × Nat := (e.2.1 * z + (r + e.2.2) % z, e.1 * z + r)
  let ts := es.map fun e => c.post.getD (at' e).1 0 - c.msg.getD (at' e).2 0
  let rs := rowMessages ts (es.map fun e => w.multOffset fallback it e.1)
  (es.zip (ts.zip rs)).foldl (fun (a : Codeword) (e : (Nat × Nat × Nat) × Int × Int) =>
    { post := a.post.setIfInBounds (at' e.1).1 (limitTo (e.2.1 + e.2.2) 511),
      msg := a.msg.setIfInBounds (at' e.1).2 e.2.2 }) c

/-- One iteration: layers 0 to 7 in order, the Z rows of each (R160). -/
def iterate (w : WeightSet) (fallback : Bool) (z it : Nat) (layers : List (List (Nat × Nat × Nat))) (c : Codeword) :
    Codeword :=
  layers.foldl (fun a es => (List.range z).foldl (fun b r => updateRow w fallback z it r es b) a) c

/-- Hard decision (R162): 1 when the posterior is negative. -/
def hard (l : Int) : Bool := decide (l < 0)

/-- Is the syndrome of the hard decisions zero over all 8Z checks (R166)? -/
def syndromeZero (z : Nat) (layers : List (List (Nat × Nat × Nat))) (post : Array Int) : Bool :=
  layers.all fun es => (List.range z).all fun r =>
    !(es.foldl (fun a e => a != hard (post.getD (e.2.1 * z + (r + e.2.2) % z) 0)) false)

/-- How a codeword's decoding ended. -/
structure DecodeEnd where
  post : Array Int
  msg : Array Int
  iter : Nat
  zeroSyndrome : Bool
  confirmed : Bool
  crcUnconfirmed : Bool
  atLimit : Bool

/-- Decode with `n` iterations left after `it` have run (R166 to R168). `confirm` answers for the hard decisions, or
`none` where no confirmation is needed; `meet` is what the RAM words read as after so many iterations, errors among them (R170). -/
def decodeLoop (w : WeightSet) (fallback : Bool) (z : Nat) (layers : List (List (Nat × Nat × Nat)))
    (confirm : Array Int → Option Bool) (meet : Nat → Codeword → Codeword) : Nat → Nat → Bool → Codeword → DecodeEnd
  | n, it, unconf, c0 =>
    let c := meet it c0
    let zero := syndromeZero z layers c.post
    let verdict := if zero then confirm c.post else none
    if zero && verdict != some false then
      ⟨c.post, c.msg, it, true, verdict == some true, unconf, false⟩
    else
      let unconf' := unconf || zero
      match n with
      | 0 => ⟨c.post, c.msg, it, zero, false, unconf', true⟩
      | m + 1 => decodeLoop w fallback z layers confirm meet m (it + 1) unconf' (iterate w fallback z it layers c)

/-- Decode one codeword from its initial posteriors (R159): check messages start at 0. -/
def decodeWord (w : WeightSet) (fallback : Bool) (rate z : Nat) (confirm : Array Int → Option Bool)
    (meet : Nat → Codeword → Codeword) (init : List Int) : DecodeEnd :=
  let layers := layerEntries rate z
  let edges := (layers.map List.length).foldl (· + ·) 0
  decodeLoop w fallback z layers confirm meet (w.limit fallback) 0 false
    ⟨init.toArray, Array.replicate (edges * z) 0⟩

/-- Code-rate index and lifting size of a DEC_WEIGHTS instance (R126); 12 is the header code. -/
def instanceRateZ (inst : Nat) : Nat × Nat :=
  if inst = 12 then (0, 16) else (inst / 4, 16 * 2 ^ (inst % 4))

/-- The DEC_WEIGHTS instance of a profile's payload code (R126). -/
def weightInstance (p : Profile) : Nat :=
  4 * p.rate + (if p.z = 16 then 0 else if p.z = 32 then 1 else if p.z = 64 then 2 else 3)

/-- Codewords one pass holds (Table 05-3). -/
def codewordsPerPass (z : Nat) : Nat := if z = 16 then 4 else if z = 32 then 2 else 1

/-- Initial posteriors of a header codeword from its 128 LLRs (Table 05-2). -/
def headerPosteriors (llr : List Int) : List Int :=
  List.replicate 64 127 ++ llr ++ List.replicate 64 0

/-- Initial posteriors of a payload block: carried LLRs, fillers, parity LLRs (Table 05-2). -/
def blockPosteriors (rate z bits b : Nat) (llr : List Int) : List Int :=
  let n := carriedBits rate z bits b
  llr.take n ++ List.replicate (blockBits rate z - n) 127 ++ llr.drop n

/-- Decode the LLRs of a whole payload of `bits` information bits, block by block: its bits, the blocks that ended at the iteration limit,
and the iterations run. -/
def decodeBlocks (w : WeightSet) (fallback : Bool) (p : Profile) (bits : Nat) (llrs : List Int) : List Bool × Nat × Nat :=
  let total := blockCount p.rate p.z bits
  (List.range total).foldl (fun (a : List Bool × Nat × Nat) i =>
    let l := (llrs.drop (blockOffset p.rate p.z bits i)).take (transmittedBits p.rate p.z bits i)
    let n := carriedBits p.rate p.z bits i
    let take (post : Array Int) : List Bool := (List.range n).map fun k => hard (post.getD k 0)
    let e := decodeWord w fallback p.rate p.z
      (fun post => if i + 1 = total then some (crc24From (crc24From crc24Init a.1) (take post) == 0) else none)
      (fun _ c => c) (blockPosteriors p.rate p.z bits i l)
    (a.1 ++ take e.post, a.2.1 + e.atLimit.toNat, a.2.2 + e.iter)) ([], 0, 0)

end Sys2Proof.Machine
end

