-- ==== Sys2Proof/Machine/FabricOps.lean ====
section
/-! DEFINITION. The fabric as every unit uses it: routes, packets, flows with their retransmission, remote requests, and
contributions on their way to a home node (R25, R349, R469 to R479). -/

namespace Sys2Proof.Machine

/-- Apply a function to the shared part of the state. -/
def State.onSys (s : State) (f : Sys → Sys) : State := { s with sys := f s.sys }
/-- Bits of JOB_MODE as the last job start took it: a write takes effect at the next one (R223, R294, R384, R565). [DEDUCED: log 54] -/
def State.jobMode (s : State) (lo n : Nat) : Nat := bitsOf s.job.mode lo n
/-- JOB_MODE.DETERMINISTIC in force (R565). -/
def State.deterministic (s : State) : Bool := s.jobMode 0 1 == 1
def State.onNet (s : State) (f : Net → Net) : State := { s with net := f s.net }

def flowDefault (_ : Nat) : Flow := {}
def portDefault (_ : Nat) : Port := {}
def sideDefault (_ : Nat) : RingSide := {}
def Net.flow (n : Net) (node : Nat) : Flow := mapGet flowDefault node n.flows
def Net.setFlow (n : Net) (node : Nat) (f : Flow) : Net := { n with flows := mapSet flowDefault node f n.flows }
def Net.port (n : Net) (p : Nat) : Port := mapGet portDefault p n.ports
def Net.setPort (n : Net) (p : Nat) (x : Port) : Net := { n with ports := mapSet portDefault p x n.ports }
def Net.side (n : Net) (p : Nat) : RingSide := mapGet sideDefault p n.sides
def Net.setSide (n : Net) (p : Nat) (x : RingSide) : Net := { n with sides := mapSet sideDefault p x n.sides }

/-! ### Registers (Table 16-8) -/

def Sys.fabricOn (y : Sys) : Bool := y.regField 0x0B0000 6 1 == 1
def Sys.fabricId (y : Sys) : Nat := y.regField 0x0B0000 8 8
def Sys.pairOn (y : Sys) : Bool := y.regField 0x0B0018 0 1 == 1
/-- Pair side: bit 5 of the node ID, 0 side A (R11). -/
def Sys.sideB (y : Sys) : Bool := (y.node / 32) == 1
def Sys.partner (y : Sys) : Nat := if y.sideB then y.node - 32 else y.node + 32

/-- Node at ring position i (R471). [DEDUCED: log 203] -/
def Sys.ringPos (y : Sys) (i : Nat) : Nat := bitsOf (y.reg (0x0B0040 + 4 * (i / 4))) (8 * (i % 4)) 8

/-- Positions in use, in order. [DEDUCED: log 203] -/
def Sys.ringOrder (y : Sys) : List Nat := (List.range 32).filter fun i => y.ringPos i != 0xFF

/-- This node's place in the order, as an index of `ringOrder`. -/
def Sys.ringPlace (y : Sys) (node : Nat) : Option Nat := (y.ringOrder.map y.ringPos).findIdx? fun d => d == node

/-- Switched route of a node: port and next-hop MAC. [DEDUCED: log 168] -/
def Sys.switched (y : Sys) (d : Nat) : Option (Nat × Nat) :=
  let r := y.reg (0x0B0080 + 8 * d)
  if r.testBit 63 then some (bitsOf r 48 3, bitsOf r 0 48) else none

/-! ### Routes (R475, R476) -/

/-- Ring port p carries packets: up, neighbour accepted, not broken. -/
def State.ringPortGood (s : State) (p : Nat) : Bool :=
  (s.net.port p).up && (s.net.side p).neighbour.isSome && !(s.net.side p).broken && !s.pins.bypassState

/-- Is a node's link on its E (true) or W side broken, as the module knows it? -/
def State.linkBroken (s : State) (node : Nat) (east : Bool) : Bool :=
  if node = s.sys.node then !s.ringPortGood (if east then 4 else 5)
  else (natAt s.net.peers node).testBit (if east then 0 else 1)

/-- Ring positions that this module's own neighbours imply are bypassed (R471). -/
def State.ownBypassed (s : State) : Nat :=
  let order := s.sys.ringOrder
  let n := order.length
  let between (p : Nat) (east : Bool) : List Nat :=
    match s.sys.ringPlace s.sys.node, ((s.net.side p).neighbour.bind s.sys.ringPlace) with
    | some me, some x =>
      let hops := if east then (x + n - me) % n else (me + n - x) % n
      (List.range (hops - 1)).map fun i => if east then (me + i + 1) % n else (me + n - i - 1) % n
    | _, _ => []
  ((between 4 true ++ between 5 false).eraseDups).foldl (fun m x => m ||| 2 ^ order.getD x 0) 0

/-- Ring positions bypassed as the module knows them: its own and those that the others report (R471, R475). -/
def State.bypassed (s : State) : Nat := s.net.peers.foldl (fun m e => m ||| e.2 / 4) s.ownBypassed

/-- Places from this module's neighbour to the place `t` in one direction, bypassed ones left out. -/
def State.pathTo (s : State) (me t : Nat) (east : Bool) : List Nat :=
  let n := s.sys.ringOrder.length
  let hops := if east then (t + n - me) % n else (me + n - t) % n
  ((List.range hops).map fun i => if east then (me + i + 1) % n else (me + n - i - 1) % n).filter fun x =>
    x == t || !s.bypassed.testBit (s.sys.ringOrder.getD x 0)

/-- Hops of a path with no broken link; none to a bypassed module, which takes no part in routing (R471). [DEDUCED: log 276] -/
def State.hops (s : State) (me t : Nat) (east : Bool) : Option Nat :=
  let nodeOf (x : Nat) : Nat := s.sys.ringPos (s.sys.ringOrder.getD x 0)
  let path := s.pathTo me t east
  let links := (me :: path).zip path
  if s.bypassed.testBit (s.sys.ringOrder.getD t 0) then none
  else if links.all (fun l => !s.linkBroken (nodeOf l.1) east && !s.linkBroken (nodeOf l.2) (!east)) then some path.length else none

/-- Route to a node: the port and the next-hop MAC of a switched route. -/
def State.route (s : State) (d : Nat) : Option (Nat × Nat) :=
  let onRing : Option Nat := match s.sys.ringPlace s.sys.node, s.sys.ringPlace d with
    | some me, some t =>
      if me = t then none
      else match s.hops me t true, s.hops me t false with
        | some e, some w => some (if w < e then 5 else 4)
        | some _, none => some 4
        | none, some _ => some 5
        | none, none => none
    | _, _ => none
  match onRing with
  | some p => some (p, 0)
  | none => match s.sys.switched d with
    | some (p, mac) => if (s.net.port p).up then some (p, mac) else none
    | none => none

/-! ### Packets (R472) -/

/-- The `n` bytes of a number, most significant first. -/
def bytesBE (n v : Nat) : List Byte := (natToBytes n v).reverse

/-- A packet: header of Table 16-4 and body. -/
def packetBytes (src dst seq ack : Nat) (reset : Bool) (p : FabricPacket) : List Byte :=
  [1, BitVec.ofNat 8 p.kind, BitVec.ofNat 8 src, BitVec.ofNat 8 dst] ++ bytesBE 4 seq ++ bytesBE 4 ack
    ++ bytesBE 2 p.body.length ++ [BitVec.ofNat 8 p.status, BitVec.ofNat 8 reset.toNat] ++ bytesBE 8 p.addr ++ bytesBE 4 p.reqId
    ++ List.replicate 4 0 ++ p.body

/-- The last SEQ applied of the reverse flow. [DEDUCED: log 161] -/
def Flow.ackValue (f : Flow) : BitVec 32 := f.expect - 1

/-- Put one packet on the wire by the route of the moment; with no route, or after hearing its own node ID from another module
(R470), nothing leaves. -/
def State.transmit (s : State) (d : Nat) (seq : BitVec 32) (reset : Bool) (p : FabricPacket) : State :=
  match (if s.net.dupNode then none else s.route d) with
  | none => s
  | some (port, mac) =>
    let f := s.net.flow d
    let bytes := packetBytes s.sys.node d seq.toNat f.ackValue.toNat reset p
    (s.onSys fun y => { y with sent := y.sent ++ [.fabric port mac bytes p.poison] }).onNet fun n =>
      n.setFlow d { n.flow d with owed := none }

/-- Send the packets the window has room for (R473: at most 256 unacknowledged). -/
def State.pumpFlow (d : Nat) : Nat → State → State
  | 0, s => s
  | n + 1, s =>
    let f := s.net.flow d
    match f.waiting with
    | [] => s
    | p :: rest =>
      if 256 ≤ f.unacked.length then s
      else
        let f1 := { f with
          waiting := rest, unacked := f.unacked ++ [(f.next, p)], next := f.next + 1,
          since := if f.unacked.isEmpty then s.sys.now else f.since }
        (((s.onNet fun x => x.setFlow d f1).transmit d f.next (f.reset == some f.next) p)).pumpFlow d n

/-- May this module originate fabric traffic to the node (R469, R470, R476)? [DEDUCED: log 173] -/
def State.reachable (s : State) (d : Nat) : Bool := s.sys.fabricOn && !s.net.dupNode && (s.route d).isSome

/-- Hand a sequenced packet to a reachable node's flow. [DEDUCED: log 159] -/
def State.sendFlow (s : State) (d : Nat) (p : FabricPacket) : State :=
  (s.onNet fun n => n.setFlow d { n.flow d with waiting := (n.flow d).waiting ++ [p] }).pumpFlow d 256

/-- An unsequenced packet. [DEDUCED: log 159] -/
def State.sendPlain (s : State) (d : Nat) (p : FabricPacket) : State := s.transmit d 0 false p

/-! ### Contributions (R104, R478, R479) -/

/-- One part of a contribution (Table 16-6). -/
def combineBody (c : Contribution) (off : Nat) (data : List Byte) : List Byte :=
  bytesBE 4 (c.shortId.toNat + c.profile * 2 ^ 20 + c.seq.toNat * 2 ^ 24) ++ [BitVec.ofNat 8 c.kind, BitVec.ofNat 8 c.lenM1]
    ++ bytesBE 2 c.channel.toNat ++ bytesBE 8 c.start ++ bytesBE 8 c.finish ++ bytesBE 2 (ofSigned 16 c.rssi)
    ++ [BitVec.ofNat 8 (ofSigned 8 c.snr), BitVec.ofNat 8 (c.ackReq.toNat + 2 * c.repeatBit.toNat)] ++ bytesBE 2 off
    ++ bytesBE 2 data.length ++ data

/-- Data of a contribution: LLRs one byte each, or payload bytes and CRC. -/
def Contribution.data (c : Contribution) : List Byte :=
  if c.kind = 0 then c.llrs.map fun v => BitVec.ofNat 8 (ofSigned 8 v) else c.bytes

/-- Bytes of DATA in one part: a body holds at most 4,096 bytes. -/
def partBytes : Nat := 4064

/-- Send a contribution to the home node, in parts; an unreachable home node is counted (R104). -/
def State.sendContribution (s : State) (home : Nat) (c : Contribution) : State :=
  if s.reachable home then
    (List.range (max 1 ((c.data.length + partBytes - 1) / partBytes))).foldl (fun a i =>
      a.sendFlow home { kind := 0x10, body := combineBody c (i * partBytes) ((c.data.drop (i * partBytes)).take partBytes) }) s
  else s.onSys fun y => y.count Cls.HOME_UNREACHABLE

end Sys2Proof.Machine
end

