-- ==== Sys2Proof/Machine/Sessions.lean ====
section
/-! DEFINITION. Session records and their mirrors, slices and resident contexts, swap-in and spill (ch. 14). Records and
contexts are kept where the spec places them: in LPDDR6 (R413) and in the context store (R418). -/

namespace Sys2Proof.Machine

/-! ### Records (R413 to R416) -/

def recordPrimary (sid : Nat) : Nat := bitsOf sid 0 2 * 2 ^ 33 + 0x100000000 + sid / 4 * 1024
def recordMirror (sid : Nat) : Nat := (bitsOf sid 0 2 ^^^ 1) * 2 ^ 33 + 0x110000000 + sid / 4 * 1024

/-- The copies of a record that lie in quarters not lost since the last full reset, primary first (R415, R428). [DEDUCED: log 40] -/
def Sys.recordCopies (s : Sys) (sid : Nat) : List Nat :=
  [recordPrimary sid, recordMirror sid].filter fun a =>
    !s.quarterGone (a / 2 ^ 33) && !s.fences.everLost.getLsbD (a / 2 ^ 33)

/-- Write record bytes through to every copy, the primary first (R415). -/
def Sys.writeRecord (s : Sys) (sid off : Nat) (bs : List Byte) : Sys :=
  (s.recordCopies sid).foldl (fun a c => a.store (c + off) bs false) s

/-- A field of a record, from the first copy whose words for it are clean; the first copy when none is. -/
def Sys.recordField (s : Sys) (sid off n : Nat) : Nat :=
  let copies := s.recordCopies sid
  let c := (copies.find? fun a => !s.poisoned (a + off) n).getD (copies.headD (recordPrimary sid))
  s.peekNat (c + off) n

/-- Some protected word of the record is poisoned in every copy that is left: the session is lost (R416). -/
def Sys.recordLost (s : Sys) (sid : Nat) : Bool :=
  let copies := s.recordCopies sid
  copies.isEmpty || (List.range 32).any fun i => copies.all fun a => s.poisoned (a + 32 * i) 32

/-- Rewrite the primary's poisoned words from a clean mirror and count RECORD_REPAIR (R416, Table 14-4); done at the header check,
at a swap-in and at delivery. [DEDUCED: log 221] -/
def Sys.repairRecord (s : Sys) (sid : Nat) : Sys :=
  match s.recordCopies sid with
  | [p, m] =>
    if (List.range 32).any fun i => s.poisoned (p + 32 * i) 32 && !s.poisoned (m + 32 * i) 32 then
      ((List.range 32).foldl (fun a i =>
        let o := 32 * i
        if a.poisoned (p + o) 32 && !a.poisoned (m + o) 32 then (a.store (p + o) (a.peekN (m + o) 32) false).markState (p + o) 32 2 else a)
        s).count Cls.RECORD_REPAIR
    else s
  | _ => s

/-- Is the short ID registered: VALID set in its record (R410, R412)? -/
def Sys.registered (s : Sys) (sid : Nat) : Bool := (s.recordField sid 0 4).testBit 31

/-- The home node: HOME_NODE [4:0] with this module's own pair side (R104, R478). -/
def Sys.homeNode (s : Sys) (sid : Nat) : Nat := s.recordField sid 4 1 % 32 + s.node / 32 * 32
def Sys.headSel (s : Sys) (sid : Nat) : Nat := s.recordField sid 5 1
def Sys.ulRing (s : Sys) (sid : Nat) : Nat := s.recordField sid 6 1 % 8
def Sys.lastSeq (s : Sys) (sid : Nat) : Option Nat :=
  if (s.recordField sid 0x201 1).testBit 0 then some (s.recordField sid 0x200 1) else none

/-- Add to a saturating 32-bit count of the record. -/
def Sys.bumpRecord (s : Sys) (sid off : Nat) : Sys :=
  s.writeRecord sid off (natToBytes 4 (min (2 ^ 32 - 1) (s.recordField sid off 4 + 1)))

/-! ### Slices and resident contexts (R417 to R419) -/

/-- Working quarters' clusters of a quarter set, ascending (R129, R417): set 0 has all, set q lacks quarter q. -/
def sliceClusters (qset : Nat) : List Nat :=
  (List.range 64).filter fun g => decide (qset = 0 ∨ g / 16 ≠ qset)

/-- The cluster whose slice serves a session (R417). -/
def sliceOf (qset sid : Nat) : Nat :=
  let cs := sliceClusters qset
  cs.getD (sid % cs.length) 0

def slotsOfSlice (g : Nat) : List Nat := (List.range 640).map fun i => 640 * g + i

def Sys.ctx (s : Sys) (slot off n : Nat) : Nat := s.peekNat (contextBase slot + off) n

def Sys.setCtx (s : Sys) (slot off n v : Nat) : Sys := s.store (contextBase slot + off) (natToBytes n v) false

def Sys.ctxState (s : Sys) (slot : Nat) : Nat := bitsOf (s.ctx slot 0 4) 20 3
def Sys.ctxSession (s : Sys) (slot : Nat) : Nat := bitsOf (s.ctx slot 0 4) 0 20

/-- Put a session and a state into ID_STATE; DIRTY is set when the context holds a session in use. -/
def Sys.setCtxState (s : Sys) (slot sid st : Nat) (dirty : Bool) : Sys :=
  s.setCtx slot 0 4 (sid + st * 2 ^ 20 + dirty.toNat * 2 ^ 23)

/-- A free context slot holds nothing. -/
def Sys.freeCtx (s : Sys) (slot : Nat) : Sys := s.store (contextBase slot) (List.replicate 256 0) false

/-- Table 14-3. -/
def ctxFree : Nat := 0
def ctxLoading : Nat := 1
def ctxIdle : Nat := 2
def ctxBlocked : Nat := 3
def ctxSpilling : Nat := 4

/-- The context slot in which a session is resident (IDLE or BLOCKED), in its own slice (R417). -/
def State.residentSlot (s : State) (sid : Nat) : Option Nat :=
  (slotsOfSlice (sliceOf s.job.qset sid)).find? fun k =>
    s.sys.ctxSession k == sid && (s.sys.ctxState k == ctxIdle || s.sys.ctxState k == ctxBlocked)

/-- The context slot that holds a session in any state but FREE. -/
def State.sessionSlot (s : State) (sid : Nat) : Option Nat :=
  (slotsOfSlice (sliceOf s.job.qset sid)).find? fun k =>
    s.sys.ctxSession k == sid && s.sys.ctxState k != ctxFree

/-! ### Writes that meet a transfer, and the downlink accounting of a context -/

/-- Do `n` bytes from `a` touch a context slot that the swap engine loads or spills (R342)? -/
def Sys.ctxMoving (s : Sys) (a n : Nat) : Bool :=
  match regionOf a with
  | .context k => (List.range ((a % 256 + n + 255) / 256)).any fun i =>
      s.ctxState (k + i) == ctxLoading || s.ctxState (k + i) == ctxSpilling
  | _ => false

/-- A mover write lands, after a transfer of a context slot it touches (R342). [DEDUCED: log 79] -/
def State.landWrite (a : Nat) (bs : List Byte) (marks : List Bool) (s : State) : State :=
  if s.sys.ctxMoving a bs.length then
    { s with sessions := { s.sessions with deferred := s.sessions.deferred ++ [(a, bs, marks)] } }
  else { s with sys := storeMarked a bs marks s.sys }

/-- The writes that waited land where no transfer is in progress any more. [DEDUCED: log 79] -/
def landDeferred (s : State) : State :=
  s.sessions.deferred.foldl (fun a w => a.landWrite w.1 w.2.1 w.2.2)
    { s with sessions := { s.sessions with deferred := [] } }

/-- DL_FRAMES_HOUR and DL_TIME_HOUR of a resident session (Table 14-2); a part of a millisecond may round either way. [DEDUCED: log 80] -/
def State.writeDlHour (sid : BitVec 20) (s : State) : State :=
  match s.residentSlot sid.toNat with
  | none => s
  | some k =>
    let mine := s.downlink.recent.filter fun e => e.1 == sid
    let ns : Nat := (mine.map fun e => e.2.2).foldl (· + ·) 0
    let r := s.sys.draw 1
    let ms : Nat := ns / 1000000 + (if ns % 1000000 = 0 then 0 else r.1.toNat)
    { s with sys := (r.2.setCtx k 0x98 4 mine.length).setCtx k 0x9C 4 ms }

/-- Frames older than 3,600 s of air time leave the hourly account. [DEDUCED: log 80] -/
def State.pruneDlHour (s : State) : State :=
  let old := s.downlink.recent.filter fun e => decide (e.2.1 + 3600000000000 ≤ s.sys.now)
  if old.isEmpty then s
  else
    (old.map fun e => e.1).foldl (fun a sid => a.writeDlHour sid)
      { s with downlink := { s.downlink with recent := s.downlink.recent.filter fun e => decide (s.sys.now < e.2.1 + 3600000000000) } }

/-- A downlink frame to a session is handed to the Sluice: DL_FRAMES of its record and the hourly account of its context. [DEDUCED: log 80] -/
def State.noteDownlink (sid : BitVec 20) (ns : Nat) (s : State) : State :=
  let s1 := State.pruneDlHour { s with
    sys := s.sys.bumpRecord sid.toNat 0x230,
    downlink := { s.downlink with recent := s.downlink.recent ++ [(sid, s.sys.now, ns)] } }
  s1.writeDlHour sid

/-! ### Bursts by handle -/

def State.burst (s : State) (h : BitVec 32) : Option Burst := s.rx.bursts.find? fun b => b.handle == h

def State.setBurst (s : State) (b : Burst) : State :=
  { s with rx := { s.rx with bursts := s.rx.bursts.map fun c => if c.handle == b.handle then b else c } }

def State.dropBurst (s : State) (h : BitVec 32) : State :=
  { s with rx := { s.rx with bursts := s.rx.bursts.filter fun c => c.handle != h } }

/-- The burst of a session that is in state OPEN or closed and not delivered. [DEDUCED: log 81] -/
def State.openBurst (s : State) (sid : BitVec 20) : Option Burst :=
  s.rx.bursts.find? fun b => b.shortId == sid && (b.state == .opened || (b.state == .closed && !b.delivered))

/-- The DEADLINE of a burst: end of its closing slot + D, in air-time ns (Table 14-2). -/
def State.burstDeadline (s : State) (b : Burst) : Nat :=
  (b.closeSlot + 1) * s.sys.slotLen + s.job.deadline * 1000

/-- Granules of 1 KiB in the pool, over the quarters still present; granule i of quarter q is q × 131,072 + i. -/
def granuleAddr (i : Nat) : Nat := i / 131072 * 2 ^ 33 + 0x120000000 + i % 131072 * 1024

/-- Global address of a soft buffer's first granule; 0 for none (Tables 14-1, 14-2). -/
def Sys.softAddr (y : Sys) : List Nat → Nat
  | [] => 0
  | g :: _ => y.node * 2 ^ 46 + granuleAddr g

/-- The frozen gain codes of a burst, one byte a stream, in 8 bytes (R89, Table 14-2). -/
def Burst.gainBytes (b : Burst) : List Byte := (List.range 8).map fun i => BitVec.ofNat 8 (b.frozen.getD i 0)

/-- Burst fields of a resident context (Table 14-2) for its open burst. -/
def State.writeBurstFields (s : State) (slot : Nat) (b : Burst) : Sys :=
  ((((((s.sys.store (contextBase slot + 0x60) b.gainBytes false).setCtx slot 0x68 8 (s.sys.softAddr b.softBuf)).setCtx slot 0x80 4 b.handle.toNat).setCtx slot 0x84 4
    b.crcReg.toNat).setCtx slot 0x88 8 (b.endTime / unitsPerNs)).setCtx slot 0x90 8 (s.burstDeadline b)).setCtx
    slot 6 1 b.airClass |>.setCtx slot 7 1 b.profile |>.setCtx slot 8 2 b.channel.toNat

def clearBurstFields (y : Sys) (slot : Nat) : Sys :=
  (y.store (contextBase slot + 0x68) (List.replicate 8 0) false).store (contextBase slot + 0x80)
    (List.replicate 24 0) false

/-- LAST_USE is the slot in progress (Table 14-2). [DEDUCED: log 219] -/
def Sys.useCtx (y : Sys) (slot slotNo : Nat) : Sys := y.setCtx slot 0x0C 4 slotNo

/-- A resident context is IDLE unless its session has an open or undelivered closed burst, or a record still held
(Table 14-3); a burst that begins or ends with it is a use. [DEDUCED: log 81, 219] -/
def State.settleCtx (s : State) (sid : BitVec 20) : State :=
  match s.residentSlot sid.toNat with
  | none => s
  | some k =>
    match s.openBurst sid with
    | some b =>
      if b.cold || b.waiting then s
      else s.onSys fun _ => ((s.writeBurstFields k b).useCtx k s.job.slot).setCtxState k sid.toNat ctxBlocked true
    | none =>
      if s.rx.held.any fun h => h.shortId == sid then s
      else s.onSys fun y => ((clearBurstFields y k).useCtx k s.job.slot).setCtxState k sid.toNat ctxIdle true

/-! ### Soft-buffer pool (R172, R175, R176) -/

/-- The lowest `n` free granules. -/
def Sys.freeGranules (s : Sys) (p : SoftPool) (n : Nat) : List Nat :=
  let rec go : Nat → Nat → Nat → List Nat
    | 0, _, _ => []
    | fuel + 1, i, k =>
      if k = 0 then []
      else if flagAt p.used i || s.quarterGone (i / 131072) then go fuel (i + 1) k
      else i :: go fuel (i + 1) (k - 1)
  go 524288 0 n

/-- See the log. [DESIGN CHOICE: log 75] -/
def SoftPool.take (p : SoftPool) (gs : List Nat) : SoftPool :=
  { p with used := gs.foldl (fun m g => flagPut m g true) p.used }

def SoftPool.release (p : SoftPool) (gs : List Nat) : SoftPool :=
  { p with used := gs.foldl (fun m g => flagPut m g false) p.used }

/-- Granules held by retained buffers. -/
def SoftPool.retainedCount (p : SoftPool) : Nat := (p.retained.map fun r => r.granules.length).foldl (· + ·) 0

/-- Write the record's and context's RETAINED fields (R415). -/
def State.writeRetained (s : State) (sid : BitVec 20) (r : Option Retained) : State :=
  let bytes : List Byte := match r with
    | some r => natToBytes 8 (s.sys.softAddr r.granules) ++ [r.seq, BitVec.ofNat 8 r.profile,
        BitVec.ofNat 8 r.lenM1, 0] ++ natToBytes 4 0 ++ natToBytes 8 r.expiry
    | none => List.replicate 24 0
  let s1 := s.onSys fun y => y.writeRecord sid.toNat 0x208 bytes
  match s1.residentSlot sid.toNat with
  | some k => s1.onSys fun y => y.store (contextBase k + 0x70) (bytes.take 12) false
  | none => s1

/-- Free a session's retained buffer, if it has one (R175). [DEDUCED: log 64] -/
def State.freeRetained (s : State) (sid : BitVec 20) : State :=
  match s.soft.retained.find? fun r => r.shortId == sid with
  | none => s
  | some r =>
    ({ s with soft := { (s.soft.release r.granules) with
        retained := s.soft.retained.filter fun x => x.shortId != sid } }).writeRetained sid none

/-- Free every retained buffer (R175, R176). -/
def State.freeAllRetained (s : State) : State :=
  s.soft.retained.foldl (fun a r => a.freeRetained r.shortId) s

/-- Granules of the pool that stand in quarters in service, less the 147,456 reserved for open bursts (R172). -/
def Sys.unreservedGranules (s : Sys) : Nat := 131072 * ((List.range 4).filter fun q => !s.quarterGone q).length - 147456

/-- The oldest retained buffer gives way when the unreserved part of the pool is full (R172, R176). -/
def State.evictFor (s : State) (n : Nat) : Nat → State
  | 0 => s
  | fuel + 1 =>
    if s.soft.retainedCount + n ≤ s.sys.unreservedGranules then s
    else
      match s.soft.retained with
      | [] => s
      | r :: _ => ((s.freeRetained r.shortId).onSys fun y => y.countLocal Cls.SOFT_EVICT 1).evictFor n fuel

/-! ### Discarding a burst -/

/-- Move waiting blocks from the deal list as queue entries free (R180). -/
def Decoder.handOver (d : Decoder) : Decoder :=
  { d with queue := d.queue ++ d.deal.take (256 - d.queue.length), deal := d.deal.drop (256 - d.queue.length) }

/-- Blocks of a discarded burst leave the decoder queues unread (Table 05-6); the deal list fills the entries they free. -/
def removeBlocks (h : BitVec 32) (d : Decoder) : Decoder :=
  { d with queue := d.queue.filter fun b => b.handle != h, deal := d.deal.filter fun b => b.handle != h }.handOver

/-- Fresh granules hold no LLR and no poison of the burst that had them before (R176). [DEDUCED: log 263] -/
def Sys.clearGranules (s : Sys) (gs : List Nat) : Sys := gs.foldl (fun y g => y.store (granuleAddr g) (List.replicate 1024 0) false) s

/-- A burst leaves service without delivery: its buffer is freed, its channel's gain may resume when its ramp-down has
ended (R88), its context is IDLE again. `endsAt` is the end of its signal in 1/384 ns. -/
def State.discardBurst (s : State) (b : Burst) (endsAt : Nat) : State :=
  let rampEnd := endsAt + 4 * symbolTime (channelWidth b.channel)
  let s1 := { s with
    rx := { s.rx with bursts := s.rx.bursts.filter fun c => c.handle != b.handle,
                      rampEnd := natPut s.rx.rampEnd b.channel.toNat rampEnd },
    soft := s.soft.release b.softBuf,
    adapt := { s.adapt with open_ := mapFilter (fun h => h != b.handle.toNat) s.adapt.open_ },
    decoders := s.decoders.map fun e => (e.1, removeBlocks b.handle e.2),
    sessions := { s.sessions with
      requests := s.sessions.requests.filter fun r => r.handle != b.handle,
      coldInUse := if b.cold then
          let g := sliceOf s.job.qset b.shortId.toNat
          natPut s.sessions.coldInUse g (natAt s.sessions.coldInUse g - 1)
        else s.sessions.coldInUse } }
  if b.state == .opened || b.state == .closed then s1.settleCtx b.shortId else s1

/-- Air time of the start and the end of the slot in progress, ns. -/
def State.slotStart (s : State) : Nat := s.job.slot * s.sys.slotLen
def State.slotEnd (s : State) : Nat := (s.job.slot + 1) * s.sys.slotLen

/-- End of the last symbol that DETECT has searched for a burst still DETECTED, in 1/384 ns. -/
def State.searchedTo (s : State) (b : Burst) : Nat :=
  let done := s.job.phase != .ingest && s.job.phase != .chan && (s.job.phase != .detect || s.job.worked)
  let upTo := (if done then s.slotEnd else s.slotStart) * unitsPerNs
  let t := symbolTime (channelWidth b.channel)
  b.trigger + (upTo - b.trigger) / t * t

/-- End of a burst that is discarded (R88): t_e once it is OPEN, before that the end of the last symbol processed for it. -/
def State.abandonTime (s : State) (b : Burst) : Nat :=
  match b.state with
  | .opened | .closed => b.endTime
  | .synced => b.syncTime + symbolsWithPilots b.symbols * symbolTime (channelWidth b.channel)
  | .detected => s.searchedTo b

/-- Discard every burst `p` selects, counting the class once each. -/
def State.discardWhere (s : State) (cls : Nat) (p : Burst → Bool) : State :=
  (s.rx.bursts.filter p).foldl (fun a b => (a.discardBurst b (a.abandonTime b)).onSys fun y => y.count cls) s

/-- States DETECTED to OPEN. -/
def Burst.active (b : Burst) : Bool := b.state != .closed

/-! ### Swap engine (R420 to R423) -/

/-- A request comes first by DEADLINE, then channel ID, then short ID (R421). -/
def SwapRequest.before (a b : SwapRequest) : Bool :=
  decide (a.deadline < b.deadline) ||
  (a.deadline == b.deadline && (decide (a.channel.toNat < b.channel.toNat) ||
    (a.channel == b.channel && decide (a.shortId.toNat < b.shortId.toNat))))

def firstRequest : List SwapRequest → Option SwapRequest
  | [] => none
  | r :: rs =>
    match firstRequest rs with
    | none => some r
    | some q => if q.before r then some q else some r

/-- Request a swap-in for a burst whose session is not resident, once. -/
def State.requestSwapIn (s : State) (b : Burst) : State :=
  if s.sessions.requests.any fun r => r.handle == b.handle then s
  else { s with sessions := { s.sessions with requests := s.sessions.requests ++
    [{ shortId := b.shortId, handle := b.handle, deadline := s.burstDeadline b, channel := b.channel }] } }

/-- Is a context protected in the slot in progress (R423)? The map holds slot number + 1. -/
def State.protectedSlot (s : State) (k : Nat) : Bool := natAt s.sessions.protectedIn k == s.job.slot + 1

/-- The age of a context (R424). -/
def State.ctxAge (s : State) (k : Nat) : Nat :=
  (s.job.slot % 2 ^ 32 + 2 ^ 32 - s.sys.ctx k 0x0C 4) % 2 ^ 32

/-- The first element with the largest value. -/
def argMax (f : Nat → Nat) : List Nat → Option Nat
  | [] => none
  | k :: ks =>
    match argMax f ks with
    | none => some k
    | some j => if f k < f j then some j else some k

def ctxPending (s : State) (k : Nat) : Bool := s.sessions.requests.any fun r => r.slot == some k

/-- Give a burst a cold context, or discard it when the slice's 256 are in use (R420). -/
def State.coldContext (s : State) (h : BitVec 32) (g : Nat) : State :=
  match s.burst h with
  | none => s
  | some b =>
    if natAt s.sessions.coldInUse g < 256 then
      ({ s with sessions := { s.sessions with coldInUse := natPut s.sessions.coldInUse g (natAt s.sessions.coldInUse g + 1) } }).setBurst
        { b with cold := true, waiting := false }
    else (s.discardBurst b b.endTime).onSys fun y => y.count Cls.CTX_COLD_FULL

def State.setRequestSlot (s : State) (h : BitVec 32) (k : Nat) : State :=
  { s with sessions := { s.sessions with requests := s.sessions.requests.map fun r =>
      if r.handle == h then { r with slot := some k } else r } }

/-- Begin a transfer into a FREE slot: LOADING (R419, R421). -/
def State.beginLoad (s : State) (r : SwapRequest) (k g : Nat) : State :=
  ((s.setRequestSlot r.handle k).onSys fun y => y.setCtxState k r.shortId.toNat ctxLoading false) |> fun t =>
    { t with sessions := { t.sessions with inFlight := natPut t.sessions.inFlight g (natAt t.sessions.inFlight g + 1) } }

/-- Begin a spill: SPILLING (R419, R421). -/
def State.beginSpill (s : State) (k g : Nat) : State :=
  (s.onSys fun y => y.setCtxState k (y.ctxSession k) ctxSpilling true) |> fun t =>
    { t with sessions := { t.sessions with inFlight := natPut t.sessions.inFlight g (natAt t.sessions.inFlight g + 1) } }

/-- A read of a record mends what its mirror can mend; a record that is lost is noted, with SESSION_RECORD_LOST at the first such
read (R416). [DEDUCED: log 221] -/
def State.readRecord (s : State) (sid : Nat) : State :=
  let s1 := s.onSys fun y => y.repairRecord sid
  if s1.sys.recordLost sid && !flagAt s1.sessions.lostSessions sid then
    { s1 with sessions := { s1.sessions with lostSessions := flagPut s1.sessions.lostSessions sid true } }.onSys
      fun y => y.event Cls.SESSION_RECORD_LOST [(2, 4, sid)]
  else s1

/-- Place one request by the first rule of R420 that applies; a lost session gets a cold context (R416). -/
def State.placeRequest (s : State) (r : SwapRequest) (g : Nat) : State :=
  let slots := slotsOfSlice g
  let removed := { s with sessions := { s.sessions with requests := s.sessions.requests.filter fun q => q.handle != r.handle } }
  if flagAt s.sessions.lostSessions r.shortId.toNat then removed.coldContext r.handle g
  else
    let free := slots.find? fun k => s.sys.ctxState k == ctxFree && !ctxPending s k
    match free with
    | some k => s.beginLoad r k g
    | none =>
      let idle := slots.filter fun k => s.sys.ctxState k == ctxIdle && !s.protectedSlot k
      match argMax s.ctxAge idle with
      | some k => ((s.setRequestSlot r.handle k).beginSpill k g).onSys fun y => y.count Cls.CTX_SPILL
      | none =>
        let blocked := slots.filter fun k => s.sys.ctxState k == ctxBlocked && !s.protectedSlot k
        match argMax (fun k => s.sys.ctx k 0x90 8) blocked with
        | some k =>
          if r.deadline < s.sys.ctx k 0x90 8 then
            let t := ((s.setRequestSlot r.handle k).beginSpill k g).onSys fun y => y.count Cls.CTX_FORCED_SPILL
            { t with rx := { t.rx with bursts := t.rx.bursts.map fun b =>
                if b.shortId.toNat == s.sys.ctxSession k && b.state == .opened then { b with waiting := true } else b } }
          else removed.coldContext r.handle g
        | none => removed.coldContext r.handle g

/-- Is a context of the session being spilled from slice `g`? [DEDUCED: log 220] -/
def State.beingSpilled (s : State) (g sid : Nat) : Bool :=
  (slotsOfSlice g).any fun k => s.sys.ctxState k == ctxSpilling && s.sys.ctxSession k == sid

/-- A swap engine takes its next request (R421): a request whose spilled slot is now FREE, else the first by order. [DEDUCED: log 220] -/
def serveSlice (g : Nat) (s : State) : State :=
  if natAt s.sessions.inFlight g ≥ 8 then s
  else
    let mine := s.sessions.requests.filter fun r =>
      sliceOf s.job.qset r.shortId.toNat == g && !s.beingSpilled g r.shortId.toNat
    let ready := mine.filter fun r => match r.slot with
      | some k => s.sys.ctxState k == ctxFree
      | none => false
    match firstRequest ready with
    | some r => s.beginLoad r (r.slot.getD 0) g
    | none =>
      match firstRequest (mine.filter fun r => r.slot.isNone) with
      | none => s
      | some r => (s.readRecord r.shortId.toNat).placeRequest r g

/-- The context image of a record with the copies a swap-in refreshes (R421, Table 14-2). -/
def refreshCtx (y : Sys) (k sid slotNo : Nat) : Sys :=
  let img := (List.range 256).map fun i => BitVec.ofNat 8 (y.recordField sid (0x100 + i) 1)
  ((((((y.store (contextBase k) img false).setCtx k 4 1 (y.recordField sid 4 1)).setCtx k 5 1 (y.headSel sid)).setCtx k 0x0A 1
    (y.recordField sid 0x200 1)).setCtx k 0x0B 1 (y.recordField sid 0x201 1)).store (contextBase k + 0x70)
    (natToBytes 8 (y.recordField sid 0x208 8) ++ natToBytes 4 (y.recordField sid 0x210 4)) false).setCtx k 0x0C 4 slotNo

/-- Free a slot of a transfer that is over. -/
def endTransfer (g : Nat) (s : State) : State :=
  landDeferred { s with
    sessions := { s.sessions with inFlight := natPut s.sessions.inFlight g (natAt s.sessions.inFlight g - 1) } }

/-- A completed swap-in (R421): the slot is IDLE, or BLOCKED when its burst is open, and protected for the slot (R423). -/
def swapInDone (k : Nat) (s : State) : State :=
  if s.sys.ctxState k == ctxLoading then
    let sid := s.sys.ctxSession k
    let s1 := s.onSys fun y => (refreshCtx (y.repairRecord sid) k sid s.job.slot).setCtxState k sid ctxIdle true
    let s2 := endTransfer (k / 640) { s1 with
      sessions := { s1.sessions with
        requests := s1.sessions.requests.filter fun r => r.shortId.toNat != sid,
        protectedIn := natPut s1.sessions.protectedIn k (s.job.slot + 1) },
      rx := { s1.rx with bursts := s1.rx.bursts.map fun b =>
        if b.shortId.toNat == sid && b.state == .opened then { b with waiting := false } else b } }
    (s2.settleCtx (BitVec.ofNat 20 sid)).writeDlHour (BitVec.ofNat 20 sid)
  else s

/-- A poisoned context is discarded and counted; its record keeps the CONTEXT it had (R425). -/
def Sys.contextPoisoned (y : Sys) (k : Nat) : Bool := y.poisoned (contextBase k) 256

/-- The burst fields of a context that poison loses (R425): OPEN_TIME to SOFT_BUF of Table 14-2. -/
def Sys.burstPoisoned (y : Sys) (k : Nat) : Bool := y.poisoned (contextBase k + 0x68) 8 || y.poisoned (contextBase k + 0x80) 24

/-- The context of slot `k` goes to both copies of its record, and the slot is FREE; a poisoned one is discarded (R421, R425). [DEDUCED: log 275] -/
def Sys.spillCtx (y : Sys) (k : Nat) : Sys :=
  (if y.contextPoisoned k then y.count Cls.CTX_POISON
    else y.writeRecord (y.ctxSession k) 0x100 (y.peekN (contextBase k) 256)).freeCtx k

/-- An open burst whose context fields are poisoned is discarded (R425). [DEDUCED: log 275] -/
def discardPoisoned (k : Nat) (s : State) : State :=
  if s.sys.burstPoisoned k then
    match s.openBurst (BitVec.ofNat 20 (s.sys.ctxSession k)) with
    | some b => (s.discardBurst b b.endTime).onSys fun y => y.count Cls.CTX_POISON_DISCARD
    | none => s
  else s

/-- A completed spill (R421, R415): the whole context goes to both copies of CONTEXT, and the slot is FREE. -/
def spillDone (k : Nat) (s : State) : State :=
  if s.sys.ctxState k == ctxSpilling then
    endTransfer (k / 640) ((discardPoisoned k s).onSys fun y => y.spillCtx k)
  else s

/-- Spill a context at once: the image goes to the record and the slot is FREE (R426, R428). -/
def spillNow (y : Sys) (k : Nat) : Sys := if (y.ctx k 0 4).testBit 23 then y.spillCtx k else y.freeCtx k

/-- Context slots that hold a session, of the quarters present. -/
def occupiedSlots (y : Sys) : List Nat :=
  ((List.range 64).filter fun g => !y.sliceFenced g).flatMap fun g =>
    (slotsOfSlice g).filter fun k => y.ctxState k != ctxFree

/-- Poisoned context (R425): discarded and reloaded from the record; poisoned burst fields lose the burst. -/
def ctxPoisoned (k : Nat) (s : State) : State :=
  if s.sys.contextPoisoned k && (s.sys.ctxState k == ctxIdle || s.sys.ctxState k == ctxBlocked) then
    let sid := s.sys.ctxSession k
    let s1 := if s.sys.ctxState k == ctxBlocked then discardPoisoned k s else s
    ((s1.onSys fun y => (refreshCtx (y.repairRecord sid) k sid s.job.slot).setCtxState k sid ctxIdle true).onSys
      fun y => y.count Cls.CTX_POISON).settleCtx (BitVec.ofNat 20 sid)
  else s

/-- Ages past 2^31 are clamped (R424). -/
def clampAges (s : State) : State :=
  (occupiedSlots s.sys).foldl (fun a k =>
    if 2 ^ 31 < a.ctxAge k then
      a.onSys fun y => y.setCtx k 0x0C 4 ((a.job.slot % 2 ^ 32 + 2 ^ 32 - 2 ^ 31) % 2 ^ 32)
    else a) s

/-- Resident contexts at a job start (R426): transfers in progress complete; contexts are kept with burst fields cleared when the quarter set is that of the previous
job since the last full reset, else spilled and freed. -/
def contextsAtStart (s0 : State) : State :=
  let s := (occupiedSlots s0.sys).foldl (fun a k => spillDone k (swapInDone k a)) s0
  if s.job.prevQset = some s.job.qset then
    s.onSys fun y => (occupiedSlots y).foldl (fun a k =>
      (clearBurstFields a k).setCtxState k (a.ctxSession k) ctxIdle true) y
  else s.onSys fun y => (occupiedSlots y).foldl spillNow y

/-! ### Registration (R410 to R412) -/

/-- Host part of a record (Table 14-1). -/
def hostPart (sid home headSel ulRing : Nat) : List Byte :=
  natToBytes 4 (sid + 2 ^ 31) ++ natToBytes 3 (home + headSel * 256 + ulRing * 65536)

/-- A session descriptor that breaks a field rule is INVALID (R410). -/
def sessionFieldsBad (sid : BitVec 32) (home ulRing : Byte) : Bool :=
  decide (2 ^ 20 ≤ sid.toNat) || decide (64 ≤ home.toNat) || decide (7 < ulRing.toNat)

def cfgDone (s : State) (opcode : Nat) (seqno : BitVec 16) (status : Nat) : State :=
  s.onSys fun y => y.completion Cls.COMPLETION 5 opcode seqno.toNat status 0 0

/-- Rewrite the host part; a resident context takes HOME_NODE and HEAD_SEL at once (R412). -/
def writeHostPart (s : State) (sid home headSel ulRing : Nat) : State :=
  let s1 := s.onSys fun y => y.writeRecord sid 0 (hostPart sid home headSel ulRing)
  match s1.sessionSlot sid with
  | some k => s1.onSys fun y => (y.setCtx k 4 1 home).setCtx k 5 1 headSel
  | none => s1

def applySessionAdd (seqno : BitVec 16) (sid : BitVec 32) (home headSel ulRing : Byte) (s : State) : State :=
  if sessionFieldsBad sid home ulRing || s.sys.registered sid.toNat then cfgDone s 0x20 seqno 2
  else
    let id := sid.toNat
    let s1 := s.onSys fun y => (y.writeRecord id 0 (List.replicate 1024 0)).writeRecord id 0
      (hostPart id home.toNat headSel.toNat ulRing.toNat)
    cfgDone { s1 with sessions := { s1.sessions with lostSessions := flagPut s1.sessions.lostSessions id false } } 0x20 seqno 0

def applySessionModify (seqno : BitVec 16) (sid : BitVec 32) (home headSel ulRing : Byte) (s : State) : State :=
  if sessionFieldsBad sid home ulRing || !s.sys.registered sid.toNat then cfgDone s 0x21 seqno 2
  else cfgDone (writeHostPart s sid.toNat home.toNat headSel.toNat ulRing.toNat) 0x21 seqno 0

end Sys2Proof.Machine
end

