-- ==== Sys2Proof/Machine/Image.lean ====
section
/-! DEFINITION. The resident image as the module reads it (R114 to R117, Tables 04-15 to 04-17), and the slot in
progress. -/

namespace Sys2Proof.Machine

def stagingBase (half : Nat) : Nat := 0x140000000 + half * 0x10000000

def State.imgNat (s : State) (off n : Nat) : Nat := s.sys.peekNat (stagingBase s.image.half + off) n

/-- Offset and length of a section of the resident image (R115). -/
def State.section' (s : State) (type inst : Nat) : Option (Nat × Nat) :=
  if s.image.present then
    let dir := s.imgNat 0x28 8
    ((List.range (s.imgNat 0x26 2)).find? fun i =>
      s.imgNat (dir + 32 * i) 2 == type && s.imgNat (dir + 32 * i + 2) 2 == inst).map fun i =>
        (s.imgNat (dir + 32 * i + 8) 8, s.imgNat (dir + 32 * i + 16) 8)
  else none

/-- Does a word of a weight section of an instance read as poisoned (R512)? -/
def State.sectionPoisoned (s : State) (type inst : Nat) : Bool :=
  match s.section' type inst with
  | some e =>
    let a := stagingBase s.image.half + e.1
    s.sys.poison.any fun w => decide (a < w.1 + protectedSize a ∧ w.1 < a + e.2)
  | none => false

/-- Offset (from the image) and count of table `kind` of a MAP instance (Table 04-15). -/
def State.mapTable (s : State) (qset kind : Nat) : Option (Nat × Nat) :=
  (s.section' 8 qset).map fun e =>
    let d := e.1 + 0x50 + 16 * (kind - 1)
    (e.1 + s.imgNat (d + 8) 8, s.imgNat (d + 4) 4)

/-- Global cluster of a logical cluster (Table 04-15). -/
def State.clusterOf (s : State) (qset logical : Nat) : Nat :=
  match s.section' 8 qset with
  | some e => s.imgNat (e.1 + logical) 1 % 64
  | none => 0

/-- A channel's home cluster: that of the DETECT_ASSIGN range that holds its first bin (Table 04-16). -/
def State.homeCluster (s : State) (id : BitVec 16) : Nat :=
  match s.mapTable s.job.qset 2 with
  | none => 0
  | some (o, n) =>
    match (List.range n).find? fun i =>
        decide (s.imgNat (o + 8 * i) 2 ≤ channelFirst id ∧ channelFirst id ≤ s.imgNat (o + 8 * i + 2) 2) with
    | some i => s.clusterOf s.job.qset (s.imgNat (o + 8 * i + 4) 1)
    | none => 0

/-- The cluster that runs RECV for a burst, whose graph decoder takes its blocks (Table 04-9). [DEDUCED: log 72] -/
def State.burstCluster (s : State) (b : Burst) : Nat :=
  match b.recvCore with
  | some c => c / 16
  | none => s.homeCluster b.channel

/-- A DEC_WEIGHTS instance of the resident image. -/
def State.stagedWeights (s : State) (inst : Nat) : List Byte :=
  match s.section' 6 inst with
  | some e => s.sys.peekN (stagingBase s.image.half + e.1) 0x540
  | none => []

def decoderDefault (_ : Nat) : Decoder := {}
def State.decoder (s : State) (g : Nat) : Decoder := mapGet decoderDefault g s.decoders
def State.setDecoder (s : State) (g : Nat) (d : Decoder) : State :=
  { s with decoders := mapSet decoderDefault g d s.decoders }

/-- The weight RAM of every working decoder takes all 13 instances at job start (R157). -/
def loadWeights (s : State) : State :=
  let all := (List.range 13).foldl (fun m i => mapSet (fun _ => []) i (s.stagedWeights i) m) []
  (List.range 64).foldl (fun a g => if a.sys.decoderFenced g then a else a.setDecoder g { a.decoder g with weights := all }) s

/-- A DEC_WEIGHTS instance in a decoder's weight RAM. -/
def Decoder.weightSet (d : Decoder) (inst : Nat) : WeightSet := (mapGet (fun _ => []) inst d.weights).toArray

/-- The same of the first working decoder: all hold the same. -/
def State.weights (s : State) (inst : Nat) : WeightSet :=
  match (List.range 64).find? fun g => !s.sys.decoderFenced g with
  | some g => (s.decoder g).weightSet inst
  | none => #[]

def detDefault (_ : Nat) : DetParams := {}
def State.detParams (s : State) (a : Nat) : DetParams := mapGet detDefault a s.job.det

def State.channelCfg (s : State) (id : BitVec 16) : Option Channel := s.job.channels.find? fun c => c.id == id

end Sys2Proof.Machine
end

