-- ==== Sys2Proof/Machine/Command.lean ====
section
/-! DEFINITION. Core commands: fields of the 128-byte command, operand forms, the loop walk, checks at issue, sequencing,
trace records, command faults, and a core's own scratchpad (ch. 06). -/

namespace Sys2Proof.Machine

/-! ### Fields (Tables 06-2, 06-3, 06-6) -/

/-- `n` bits at bit `lo` counted from byte `o`. -/
def Cmd.at (w : Cmd) (o lo n : Nat) : Nat := bitsOf w.toNat (8 * o + lo) n

def Cmd.opcode (w : Cmd) : Nat := w.at 0 0 8
def Cmd.traced (w : Cmd) : Bool := w.at 1 0 1 == 1
def Cmd.signalDone (w : Cmd) : Bool := w.at 1 1 1 == 1
def Cmd.dealt (w : Cmd) : Bool := w.at 1 2 1 == 1
def Cmd.tag (w : Cmd) : Nat := w.at 2 0 16
def Cmd.levels (w : Cmd) : Nat := w.at 4 12 3
def Cmd.doneObj (w : Cmd) : Nat := w.at 6 0 4
def Cmd.count (w : Cmd) (l : Nat) : Nat := w.at (8 + 2 * l) 0 16
def Cmd.opAddr (w : Cmd) (k : Nat) : Nat := w.at (20 + 20 * k) 0 19
def Cmd.opFmt (w : Cmd) (k : Nat) : Nat := w.at (20 + 20 * k) 19 4
def Cmd.opMode (w : Cmd) (k : Nat) : Nat := w.at (20 + 20 * k) 23 2
def Cmd.opRing (w : Cmd) (k : Nat) : Nat := w.at (20 + 20 * k) 25 3
def Cmd.opValid (w : Cmd) (k : Nat) : Bool := w.at (20 + 20 * k) 31 1 == 1
def Cmd.stride (w : Cmd) (k l : Nat) : Int := toSigned 20 (w.at (24 + 20 * k) (20 * l) 20)

/-- `n` bits of PARAM from its byte `o`. -/
def Cmd.param (w : Cmd) (o lo n : Nat) : Nat := w.at (80 + o) lo n

/-- ARG`j` of SEQ.CALL. -/
def Cmd.arg (w : Cmd) (j : Nat) : Nat := w.param (4 + 4 * j) 0 32

/-! ### The loop walk (R203) -/

/-- Steps of the walk. -/
def Cmd.steps (w : Cmd) : Nat := ((List.range w.levels).map w.count).foldl (· * ·) 1

/-- Index of level `l` at step `n`. -/
def Cmd.index (w : Cmd) (n l : Nat) : Nat :=
  n / ((List.range l).map w.count).foldl (· * ·) 1 % (w.count l)

/-- Scratchpad address of operand `k` at step `n` from its base, modulo 512 KiB. -/
def Cmd.addrAt (w : Cmd) (k base n : Nat) : Nat :=
  let off := ((List.range w.levels).map fun l => (w.index n l : Int) * w.stride k l).foldl (· + ·) (0 : Int)
  (((base : Int) + off) % 524288).toNat

/-- Global address of a mover step: a sum taken without wrap, in 64 bits. One outside the 52-bit address space leaves every region, and
R23 handles it. [DEDUCED: log 114] -/
def Cmd.globalAt (w : Cmd) (n : Nat) : Nat :=
  let off := ((List.range w.levels).map fun l => (w.index n l : Int) * toSigned 32 (w.param (8 + 4 * l) 0 32)).foldl (· + ·) (0 : Int)
  ofSigned 64 ((w.param 0 0 64 : Int) + off)

/-! ### Cores -/

def coreDefault (_ : Nat) : Core := {}
def State.core (s : State) (c : Nat) : Core := mapGet coreDefault c s.cores
def State.setCore (s : State) (c : Nat) (k : Core) : State := { s with cores := mapSet coreDefault c k s.cores }
def State.onCore (s : State) (c : Nat) (f : Core → Core) : State := s.setCore c (f (s.core c))

def streamRingDefault (_ : Nat) : StreamRing := {}
def Core.ring (k : Core) (r : Nat) : StreamRing := mapGet streamRingDefault r k.rings
def Core.setRing (k : Core) (r : Nat) (x : StreamRing) : Core := { k with rings := mapSet streamRingDefault r x k.rings }

def Core.obj (k : Core) (i : Nat) : BitVec 32 := mapGet (fun _ => (0 : BitVec 32)) i k.objs
def Core.setObj (k : Core) (i : Nat) (v : BitVec 32) : Core := { k with objs := mapSet (fun _ => (0 : BitVec 32)) i v k.objs }

/-- Committed blocks T − H, modulo 2^32 (R353). -/
def StreamRing.ready (r : StreamRing) : Nat := (r.tail - r.head).toNat
/-- F, which on a ring without feeds is T. -/
def StreamRing.fillCount (r : StreamRing) : BitVec 32 := if r.feeds then r.fill else r.tail
/-- Free slots SLOTS − (F − H). -/
def StreamRing.space (r : StreamRing) : Nat := r.slots - (r.fillCount - r.head).toNat
/-- Scratchpad address of slot `i` of a ring. -/
def StreamRing.slotAddr (r : StreamRing) (i : BitVec 32) : Nat := r.base + i.toNat % r.slots * r.slotKib * 1024

/-- A core that can act: firmware loaded, not fenced, no module stop. -/
def State.coreLive (s : State) (c : Nat) : Bool :=
  flagAt s.heron.loaded c && !s.sys.coreFenced c && !s.heron.moduleStop

/-- Width 31: a bypassed column (R254). -/
def State.width31 (s : State) (c : Nat) : Bool :=
  (mapGet (fun _ => (0 : BitVec 6)) c s.heron.shadow.badColumn).getLsbD 5

/-- Overflow options in force (R294): JOB_MODE.IEEE_OVF as the last job start took it. -/
def State.ieeeOpt (s : State) : Nat := s.jobMode 4 4
def State.ieee32 (s : State) : Bool := ieeeFor s.ieeeOpt 9

/-! ### A core's scratchpad -/

/-- Scratchpad addresses wrap modulo 512 KiB (R203). -/
def spadByte (core a : Nat) : Nat := spadBase core + a % 524288

def Sys.spadRead (y : Sys) (core a : Nat) : Nat → List Byte
  | 0 => []
  | n + 1 => y.peek (spadByte core a) :: y.spadRead core (a + 1) n

def Sys.spadPoison (y : Sys) (core a n : Nat) : Bool :=
  (List.range n).any fun i => y.poisoned (spadByte core (a + i)) 1

/-- Write bytes with their poison; each protected word they touch is marked by R510. -/
def Sys.spadWrite (y : Sys) (core a : Nat) (bs : List Byte) (p : Bool) : Sys :=
  let room := 524288 - a % 524288
  let first := y.store (spadByte core a) (bs.take room) p
  if bs.length ≤ room then first
  else (List.range ((bs.length - room + 524287) / 524288)).foldl (fun z i =>
    z.store (spadBase core) ((bs.drop (room + 524288 * i)).take 524288) p) first

/-- Element `i` of a run of elements from address `a`: its code and poison (R289: INT4 two to a byte). -/
def Sys.elem (y : Sys) (core fmt a i : Nat) : Nat × Bool :=
  if fmt = 0 then
    let b := (y.peek (spadByte core (a + i / 2))).toNat
    (bitsOf b (4 * (i % 2)) 4, y.spadPoison core (a + i / 2) 1)
  else
    let n := fmtBits fmt / 8
    (bytesToNat (y.spadRead core (a + n * i) n), y.spadPoison core (a + n * i) n)

/-- Bytes of a run of element codes (R289). -/
def packElems (fmt : Nat) : List Nat → List Byte
  | [] => []
  | [v] => if fmt = 0 then [BitVec.ofNat 8 (v % 16)] else natToBytes (fmtBits fmt / 8) v
  | v :: u :: rest =>
    if fmt = 0 then BitVec.ofNat 8 (v % 16 + 16 * (u % 16)) :: packElems fmt rest
    else natToBytes (fmtBits fmt / 8) v ++ packElems fmt (u :: rest)

/-- Write a run of elements, each with its poison: a word that receives a poisoned element is poisoned whole (R510). -/
def Sys.writeElems (y : Sys) (core fmt a : Nat) (es : List (Nat × Bool)) : Sys :=
  let bs := packElems fmt (es.map Prod.fst)
  let y1 := y.spadWrite core a bs false
  (List.range es.length).foldl (fun z i =>
    if (es.getD i (0, false)).2 then
      let o := if fmt = 0 then i / 2 else fmtBits fmt / 8 * i
      z.markPoison (spadByte core (a + o)) (if fmt = 0 then 1 else fmtBits fmt / 8) true
    else z) y1

/-! ### Trace (R219, R595) -/

def tracePlaces : Nat := 2097152
def traceBase : Nat := 0x160000000

def traceRecord (kind core tag hold cycle slot mark : Nat) : Record :=
  mkRecord [(0, 2, kind), (2, 2, core), (4, 2, tag), (6, 2, min 65535 hold), (8, 4, cycle), (16, 8, slot), (24, 8, mark)]

/-- Place one record; `none` when STOP_ON_FULL finds the buffer full. -/
def Sys.placeTrace (y : Sys) (r : Record) : Option Sys :=
  let t := y.trace
  if t.count = tracePlaces ∧ t.ctrl.getLsbD 1 then none
  else
    let y1 := y.store (traceBase + 32 * t.head) (natToBytes 32 r.toNat) false
    some { y1 with trace := { t with head := (t.head + 1) % tracePlaces, count := min tracePlaces (t.count + 1),
                                     written := (t.written + 1) % 2 ^ 32 } }

def Sys.loseTrace (y : Sys) (core : Nat) : Sys :=
  { y with trace := { y.trace with lost := min (2 ^ 32 - 1) (y.trace.lost + 1),
                                   coreLost := natPut y.trace.coreLost core (natAt y.trace.coreLost core + 1) } }

/-- Write a record of a core: first a KIND 3 record when earlier ones were lost. -/
def Sys.traceWrite (y : Sys) (core kind tag hold cycle slot mark : Nat) : Sys :=
  let on := y.trace.ctrl.getLsbD 0 && y.trace.clusters.getLsbD (core / 16) && (kind == 2 || !y.trace.ctrl.getLsbD 2)
  if !on then y
  else
    let lost := natAt y.trace.coreLost core
    let y0 := if lost = 0 then some y
      else (y.placeTrace (traceRecord 3 core 0 0 lost slot 0)).map fun z =>
        { z with trace := { z.trace with coreLost := natPut z.trace.coreLost core 0 } }
    match y0 with
    | none => y.loseTrace core
    | some y1 =>
      match y1.placeTrace (traceRecord kind core tag hold cycle slot mark) with
      | some y2 => y2
      | none => y1.loseTrace core

/-! ### Sequencing (R195, R207, R208) -/

/-- Leave the ranges that end at the command just issued, or go round again. -/
def nextInRange (pc : Nat) : List Repeat → Nat × List Repeat
  | [] => (pc + 1, [])
  | r :: rest =>
    if r.last = pc then
      if 1 < r.left then (r.first, { r with left := r.left - 1 } :: rest) else nextInRange pc rest
    else (pc + 1, r :: rest)

/-- The command after the one just issued. -/
def Stream.advance (r : Stream) : Stream :=
  let n := nextInRange r.pc r.reps
  { r with pc := n.1, reps := n.2, waiting := false }

def Core.advance (k : Core) : Core := { k with stream := k.stream.map Stream.advance }

/-- The command a core issues next, and the core: from its stream's place in command memory in the job state, from the
firmware's service stream in the service state. [DEDUCED: log 74, 120] -/
def State.current (s : State) (i : Issue) : Option Cmd :=
  let k := s.core i.core.toNat
  if !s.coreLive i.core.toNat || k.call.isSome then none
  else
    match k.stream with
    | some r =>
      if r.ended || r.stopped || r.barrier.isSome then none else some (mapGet (fun _ => (0 : BitVec 1024)) r.pc k.cm)
    | none => if k.inJob then none else some i.word

/-- The fault record of a command: unit, core and tag (R218, R220). -/
def State.cmdFault (s : State) (cls unit core tag detail : Nat) : State :=
  (s.onSys fun y => y.fault cls unit core tag detail).onCore core fun k =>
    { k with stream := k.stream.map fun r => { r with stopped := true } }

/-- Fence a core at once with cause 3, its units' work lost (R30, R183, R257). -/
def resetCore (k : Core) : Core :=
  { k with stream := none, array := {}, vec := [], call := none, movers := [], packets := [], signals := [], dones := [], su := {} }

def State.fenceCoreNow (s : State) (c : Nat) : State := (s.onSys fun y => y.fenceCore c 3).onCore c resetCore

/-- What the race check can find (R221, R222): a read and a write of one 8-byte granule of the scratchpad by the array loader, the array
streamer, the vector engine or the Signal Unit, 0 to 16 cc apart. -/
def Race.ok (r : Race) : Bool :=
  let unit (u : Nat) : Bool := u == UnitCode.array || u == UnitCode.vector || u == UnitCode.signalUnit
  unit r.unit && unit r.writerUnit && decide (r.granule.toNat % 8 = 0 ∧ r.granule.toNat < 524288) && decide (r.distance ≤ 16)

/-- What every issue does besides the command's own effect: held cycles, issue trace record, race records (R197, R219,
R221, R223), and the program position; a race stops the core when RACE_FATAL is set (Table 06-9). -/
def State.issued (s : State) (i : Issue) (w : Cmd) : State :=
  let c := i.core.toNat
  let fatal := s.jobMode 3 1 == 1
  let races := if s.jobMode 2 1 = 1 then i.races.filter Race.ok else []
  let s1 := s.onSys fun y =>
    let y1 := y.countLocal Cls.ISSUE_HOLD i.held
    let y2 := if w.traced then y1.traceWrite c 1 w.tag i.held i.cycle.toNat s.job.slot 0 else y1
    races.foldl (fun z r => z.faultWith fatal Cls.RACE r.unit c w.tag
      (r.writerTag.toNat + r.writerUnit * 2 ^ 16 + r.granule.toNat * 2 ^ 32 + r.distance * 2 ^ 64)) y2
  s1.onCore c fun k =>
    let k1 := k.advance
    if fatal && !races.isEmpty then { k1 with stream := k1.stream.map fun r => { r with stopped := true } } else k1

/-- SIGNAL_DONE of a command that completes (R361). -/
def Core.complete (k : Core) (w : Cmd) : Core := if w.signalDone then { k with dones := k.dones ++ [w.doneObj] } else k

/-! ### Checks at issue (R193, R204, R205) -/

def elemBytes (fmt : Nat) : Nat := if fmt = 0 then 1 else fmtBits fmt / 8

/-- What is required of operand `k`: 0 must be absent, 1 must be present, 2 may be either. [DEDUCED: log 103] -/
def operandOk (w : Cmd) (k req : Nat) : Bool :=
  match req with
  | 0 => !w.opValid k
  | 1 => w.opValid k
  | _ => true

/-- Rules common to all commands: reserved formats and modes, LEVELS, counts, operands. `flat` commands need LEVELS 0. [DEDUCED: log 103] -/
def commonOk (w : Cmd) (flat : Bool) (r0 r1 r2 : Nat) : Bool :=
  decide (w.levels ≤ 6) && (!flat || w.levels == 0)
    && (w.dealt || (List.range w.levels).all fun l => decide (0 < w.count l))
    && operandOk w 0 r0 && operandOk w 1 r1 && operandOk w 2 r2
    && (List.range 3).all fun k => !w.opValid k || (fmtValid (w.opFmt k) && decide (w.opMode k < 3))

/-- Base of an operand at issue, or `none` where R204 or R352 refuses it. -/
def Core.base (k : Core) (w : Cmd) (n : Nat) : Option Nat :=
  if !w.opValid n then some 0
  else if w.opMode n = 0 then some (w.opAddr n)
  else
    let r := k.ring (w.opRing n)
    if !r.enabled || decide (r.slotKib * 1024 ≤ w.opAddr n) then none
    else some (r.slotAddr (if w.opMode n = 1 then r.head else r.tail) + w.opAddr n)

/-- The command with its bases. -/
def Core.resolve (k : Core) (w : Cmd) : Option PortCmd :=
  match k.base w 0, k.base w 1, k.base w 2 with
  | some a, some b, some c => some { word := w, base0 := a, base1 := b, base2 := c }
  | _, _, _ => none

def PortCmd.base (c : PortCmd) (k : Nat) : Nat := match k with | 0 => c.base0 | 1 => c.base1 | _ => c.base2
def PortCmd.addr (c : PortCmd) (k step : Nat) : Nat := c.word.addrAt k (c.base k) step

/-- Alignment of used operands and strides (R205). -/
def aligned (c : PortCmd) : Bool :=
  (List.range 3).all fun k => !c.word.opValid k ||
    (let n := elemBytes (c.word.opFmt k)
     decide (c.base k % n = 0) && (List.range c.word.levels).all fun l => decide (c.word.stride k l % (n : Int) = 0))

/-- A dealt command whose dealt count is 0: no step (R206). -/
def dealtZero (w : Cmd) : Bool := w.dealt && decide (0 < w.levels) && decide (w.steps = 0)

/-- Outcome of the checks of one command at issue. -/
inductive Checked where
  | ok (c : PortCmd)
  | empty
  | bad (cls : Nat)
  deriving DecidableEq, Repr

/-- ILLEGAL_CMD before MISALIGNED; then a dealt zero; else the command to hand over. -/
def check (k : Core) (w : Cmd) (legal : Bool) (extraAligned : Bool := true) : Checked :=
  if !legal then .bad Cls.ILLEGAL_CMD
  else
    match k.resolve w with
    | none => .bad Cls.ILLEGAL_CMD
    | some c =>
      if !aligned c || !extraAligned then .bad Cls.MISALIGNED
      else if dealtZero w then .empty else .ok c

/-- Issue the command a core is at when it has this opcode: `legal` gives its own rules, `room` whether its port takes it,
`run` its effect. A command that faults issues and does nothing; one whose port is full is held (R197). -/
def State.issueCmd (s : State) (i : Issue) (opcode unit : Nat) (legal : Cmd → Bool) (room : Core → Cmd → Bool)
    (run : PortCmd → State → State) : State :=
  match s.current i with
  | none => s
  | some w =>
    let c := i.core.toNat
    if i.ecc then (s.fenceCoreNow c).onSys fun y => y.fault Cls.CMD_ECC unit c w.tag 0
    else if w.opcode != opcode then s
    else
      match check (s.core c) w (legal w) with
      | .bad cls => s.cmdFault cls unit c w.tag 0
      | .empty => (s.issued i w).onCore c fun k => k.complete w
      | .ok p => if room (s.core c) w then run p (s.issued i w) else s

end Sys2Proof.Machine
end

