-- ==== Sys2Proof/Machine/Chain.lean ====
section
/-! DEFINITION. Fused chains: classes, stages, reductions, output narrowing and the statistics of narrowing writes
(R260 to R278, R285, R306, R307). -/

namespace Sys2Proof.Machine

/-- A working value of a part: floating, or integer. -/
inductive Scalar where
  | flt (x : Num)
  | int (v : Int)
  deriving DecidableEq, Repr

def Scalar.num : Scalar → Num
  | .flt x => x
  | .int v => .ofInt v

def Scalar.toInt : Scalar → Int
  | .flt x => cvtInt x
  | .int v => v

/-- A working value: one or two parts, and poison (R268, R285). -/
structure Val where
  re : Scalar := .int 0
  im : Scalar := .flt Num.zero
  poison : Bool := false
  deriving DecidableEq, Repr

/-- A stage word (R261). -/
structure Stage where
  code : Nat
  a : Nat
  b : Nat
  c : Nat
  pred : Nat
  strictFmt : Nat
  deriving DecidableEq, Repr

/-- The 48-byte PARAM of a chain. -/
structure Chain where
  elems : Nat
  stages : List Stage
  count : Nat
  strict : Bool
  reduce : Bool
  redOp : Nat
  redTap : Nat
  redAxis : Nat
  redAddr : Nat
  redFmt : Nat
  imm0 : Nat
  imm1 : Nat
  deriving DecidableEq, Repr

def parseStage (v : Nat) : Stage :=
  { code := bitsOf v 0 8, a := bitsOf v 8 4, b := bitsOf v 12 4, c := bitsOf v 16 4, pred := bitsOf v 20 3, strictFmt := bitsOf v 24 4 }

/-- Read a chain from its 48 bytes as a number (Table 06-6). -/
def parseChain (p : Nat) : Chain :=
  let n := bitsOf p 16 4
  { elems := bitsOf p 0 16, count := n, strict := p.testBit 20, reduce := p.testBit 21, redOp := bitsOf p 24 3, redTap := bitsOf p 28 3,
    redAxis := bitsOf p 31 1, redAddr := bitsOf p 32 19, redFmt := bitsOf p 51 4,
    stages := (List.range n).map fun i => parseStage (bitsOf p (64 + 32 * i) 32), imm0 := bitsOf p 320 32, imm1 := bitsOf p 352 32 }

/-- Kind of a stage code (Table 08-2): 0 floating, 1 transcendental, 2 integer, 3 complex; `none` for an absent code. -/
def stageKind (code : Nat) : Option Nat :=
  if code ≤ 0x0F then some 0
  else if code ≤ 0x17 then some 1
  else if 0x20 ≤ code ∧ code ≤ 0x2C then some 2
  else if 0x30 ≤ code ∧ code ≤ 0x33 then some 3
  else none

/-- Sources a stage uses: one, two, or three. -/
def stageArity (code : Nat) : Nat :=
  if code ∈ [0x04, 0x0A, 0x0C, 0x2C] then 3
  else if code ∈ [0x01, 0x02, 0x03, 0x05, 0x06, 0x0B, 0x17, 0x20, 0x21, 0x22, 0x23, 0x24, 0x26, 0x27, 0x28, 0x29, 0x2A, 0x2B, 0x30, 0x31] then 2
  else 1

def Stage.sources (t : Stage) : List Nat := [t.a, t.b, t.c].take (stageArity t.code)

/-- Chain classes (Table 08-1): complex, floating, or integer of a width. -/
inductive ChainClass where
  | complex
  | floating
  | integer (width : Nat)
  deriving DecidableEq, Repr

/-- The class fixed at issue from formats and stage kinds (R260). -/
def chainClass (c : Chain) (fmts : List Nat) : ChainClass :=
  let fs := if c.reduce then fmts ++ [c.redFmt] else fmts
  let kinds := c.stages.map fun t => (stageKind t.code).getD 0
  if fs.contains 10 || kinds.contains 3 then .complex
  else if kinds.any (fun k => decide (k ≤ 1)) || fs.any (fun f => !fmtInt f) then .floating
  else if fs.contains 4 then .integer 32
  else if fs.contains 3 || fs.contains 2 then .integer 16
  else .integer 8

/-- Rules of R193 (a reserved STRICT_FMT in use), R262 and R275 on stages, sources and reduction; `epi` admits the sources of R249. `fmts` are the chain's
formats, `inputs` those of its used inputs, `op2` whether Op2 is valid. -/
def chainLegal (c : Chain) (epi : Bool) (fmts inputs : List Nat) (op2 : Bool) : Bool :=
  decide (1 ≤ c.count ∧ c.count ≤ 8)
    && ((List.range c.stages.length).all fun i =>
      match c.stages[i]? with
      | none => true
      | some t => (stageKind t.code).isSome && decide (t.pred ≤ 5) && t.sources.all fun x =>
          if x ≤ 1 then (x == 0 || op2)
          else if x ≤ 3 then true
          else if x ≤ 7 then (epi && decide (x ≤ 6))
          else decide (x - 8 < i))
    && (!c.reduce || (decide (c.redTap < c.count) && decide (c.redOp ≤ 6) && fmtValid c.redFmt
        && (!(c.redOp == 4 || c.redOp == 5) || c.redFmt == 4)
        && (chainClass c fmts != .complex || decide (c.redOp ≤ 1))))
    && (epi || c.redAxis == 0)
    && !((c.stages.any fun t => stageKind t.code == some 3) && inputs.any fun f => f != 10)
    && (!c.strict || (c.stages.take (c.count - 1)).all fun t => fmtValid t.strictFmt)

/-! ### Stages (R263 to R266) -/

/-- PRED of R261: EQ, NE, LT, LE, GT, GE. -/
def predHolds (p : Nat) (lt eq : Bool) : Bool :=
  match p with | 0 => eq | 1 => !eq | 2 => lt | 3 => lt || eq | 4 => !lt && !eq | _ => !lt

/-- CMP: with a NaN operand NE holds and every other predicate fails. -/
def cmpHolds (p : Nat) (a b : Num) : Bool := if a.isNan || b.isNan then p == 1 else predHolds p (flt a b) (feq a b)

/-- A floating or transcendental stage (Table 08-2). -/
def floatStage (ieee : Bool) (t : Stage) (a b c : Num) : Scalar :=
  match t.code with
  | 0x00 => .flt a
  | 0x01 => .flt (fadd ieee a b)
  | 0x02 => .flt (fsub ieee a b)
  | 0x03 => .flt (fmul ieee a b)
  | 0x04 => .flt (fmadd ieee a b c)
  | 0x05 => .flt (fmin a b)
  | 0x06 => .flt (fmax a b)
  | 0x07 => .flt (fabs a)
  | 0x08 => .flt (fneg a)
  | 0x09 => .flt (if a.isNan then .nan else if flt Num.zero a then a else Num.zero)
  | 0x0A => .flt (fmin (fmax a b) c)
  | 0x0B => .flt (if cmpHolds t.pred a b then fone else Num.zero)
  | 0x0C => .flt (if a.isNan || !feq a Num.zero then b else c)
  | 0x0D => .flt (frint a)
  | 0x0E => .int (cvtInt a)
  | 0x0F => .flt (fround ieee a)
  | 0x10 => .flt (fexp ieee a)
  | 0x11 => .flt (flog ieee a)
  | 0x12 => .flt (fdiv ieee fone a)
  | 0x13 => .flt (frsqrt ieee a)
  | 0x14 => .flt (fsqrt ieee a)
  | 0x15 => .flt (fsigmoid ieee a)
  | 0x16 => .flt (ftanh ieee a)
  | _ => .flt (fdiv ieee a b)

/-- Bitwise operation on two's complement at width `w`. -/
def bitwise (w : Nat) (f : Nat → Nat → Nat) (a b : Int) : Int := toSigned w (f (ofSigned w a) (ofSigned w b))

/-- Round a quotient by 2^n, ties away from zero (R292). -/
def shiftRound (v : Int) (n : Nat) : Int :=
  if v < 0 then -((roundMagInt v.natAbs (2 ^ n) : Nat) : Int) else (roundMagInt v.natAbs (2 ^ n) : Nat)

/-- Saturation of a stage result to the working width: INT32, INT16 or INT8, whose written range has no −128 (R265, R288), so that the
result is that of the separate form (R273). [DEDUCED: log 222] -/
def satWork (w : Nat) (v : Int) : Int := if w = 8 then clampInt (intRange 1) v else satSigned w v

/-- An integer stage at width `w`, saturated (R265). -/
def intStage (w : Nat) (t : Stage) (a b c : Int) : Int :=
  let r : Int := match t.code with
    | 0x20 => a + b
    | 0x21 => a - b
    | 0x22 => a * b
    | 0x23 => if a < b then a else b
    | 0x24 => if a < b then b else a
    | 0x25 => (a.natAbs : Int)
    | 0x26 => shiftRound a (b % 32).toNat
    | 0x27 => a * 2 ^ (b % 32).toNat
    | 0x28 => bitwise w Nat.land a b
    | 0x29 => bitwise w Nat.lor a b
    | 0x2A => bitwise w Nat.xor a b
    | 0x2B => if predHolds t.pred (decide (a < b)) (decide (a = b)) then 1 else 0
    | _ => if a ≠ 0 then b else c
  satWork w r

/-- A complex stage: (re, im), each part as MADD: one rounding (R263). -/
def complexStage (ieee : Bool) (code : Nat) (a b : Num × Num) : Num × Num :=
  let prod (p q r s : Num) (minus : Bool) : Num :=
    let x := mulExact p q
    let y := mulExact r s
    fadd ieee x (if minus then fneg y else y)
  match code with
  | 0x30 => (prod a.1 b.1 a.2 b.2 true, prod a.1 b.2 a.2 b.1 false)
  | 0x31 => (prod a.1 b.1 a.2 b.2 false, prod a.2 b.1 a.1 b.2 true)
  | 0x32 => (a.1, fneg a.2)
  | _ => (prod a.1 a.1 a.2 a.2 false, Num.zero)

/-- An integer entering a floating stage: exact, or INT32 rounded once (R266). -/
def Scalar.toFlt (ieee : Bool) (x : Scalar) : Num :=
  match x with
  | .flt n => n
  | .int v => fround ieee (.ofInt v)

/-- Width of the integers of a class: its working width, or INT32 between floating and complex stages (R260). -/
def ChainClass.width : ChainClass → Nat
  | .integer w => w
  | _ => 32

/-- Round a scalar as a write to STRICT_FMT would, and widen it back to the working format (R274): into an integer as by R295. CINT16
acts on each part as INT16 does. -/
def strictPart (cls : ChainClass) (opt fmt : Nat) (x : Scalar) : Scalar :=
  let f := if fmt = 10 then 3 else fmt
  let n := readElem f (writeElem f opt x.num)
  match x with
  | .flt _ => .flt n
  | .int _ => .int (satWork cls.width (cvtInt n))

/-- One stage on working values. -/
def stageVal (cls : ChainClass) (opt : Nat) (t : Stage) (a b c : Val) : Val :=
  let ieee := ieeeFor opt 9
  let p := (a.poison && decide (1 ≤ stageArity t.code)) || (b.poison && decide (2 ≤ stageArity t.code))
    || (c.poison && decide (3 ≤ stageArity t.code))
  match stageKind t.code with
  | some 2 =>
    let w := cls.width
    let f (x y z : Scalar) : Scalar := .int (intStage w t (satSigned w x.toInt) (satSigned w y.toInt) (satSigned w z.toInt))
    { re := f a.re b.re c.re, im := f a.im b.im c.im, poison := p }
  | some 3 =>
    let r := complexStage ieee t.code (a.re.toFlt ieee, a.im.toFlt ieee) (b.re.toFlt ieee, b.im.toFlt ieee)
    { re := .flt r.1, im := .flt r.2, poison := p }
  | _ =>
    let f (x y z : Scalar) : Scalar := floatStage ieee t (x.toFlt ieee) (y.toFlt ieee) (z.toFlt ieee)
    { re := f a.re b.re c.re, im := f a.im b.im c.im, poison := p }

/-- Does STRICT_CHAIN narrow this stage's result? FP32 leaves a working value of a floating chain as it is (R274). -/
def narrowsStage (cls : ChainClass) (c : Chain) (i : Nat) (t : Stage) : Bool :=
  c.strict && decide (i + 1 < c.stages.length) && (t.strictFmt != 9 || (match cls with | .integer _ => true | _ => false))

/-- A stage output as a later stage reads it: in a floating or complex chain an integer result is held as the FP32 value that the
separate form would write (R260, R273). -/
def Scalar.carried (cls : ChainClass) (ieee : Bool) (x : Scalar) : Scalar :=
  match cls, x with
  | .integer _, _ => x
  | _, .flt _ => x
  | _, .int v => .int (cvtInt (fround ieee (.ofInt v)))

/-- Outputs of all stages for one element; `src` gives the sources below 8. -/
def runStages (cls : ChainClass) (opt : Nat) (c : Chain) (src : Nat → Val) : List Val :=
  (List.range c.stages.length).foldl (fun outs i =>
    match c.stages[i]? with
    | none => outs
    | some t =>
      let ieee := ieeeFor opt 9
      let get (x : Nat) : Val :=
        if 8 ≤ x then
          let o := outs.getD (x - 8) {}
          { o with re := o.re.carried cls ieee, im := o.im.carried cls ieee }
        else src x
      let v := stageVal cls opt t (get t.a) (get t.b) (get t.c)
      let v1 := if narrowsStage cls c i t then
          { v with re := strictPart cls opt t.strictFmt v.re, im := strictPart cls opt t.strictFmt v.im } else v
      outs ++ [v1]) []

/-- An immediate: FP32, or in an integer chain its bits as INT32 saturated to the class width (R265); complex (IMM, +0). -/
def immVal (cls : ChainClass) (v : Nat) : Val :=
  match cls with
  | .integer w => { re := .int (satSigned w (toSigned 32 v)) }
  | _ => { re := .flt (ofFp32 v) }

/-- An input element as it enters the chain (R266, R268). -/
def inputVal (fmt : Nat) (e : Nat × Bool) : Val :=
  if fmt = 10 then
    { re := .flt (.ofInt (toSigned 16 e.1)), im := .flt (.ofInt (toSigned 16 (e.1 / 65536))), poison := e.2 }
  else if fmtInt fmt then { re := .int (readElem fmt e.1).roundInt, im := .flt Num.zero, poison := e.2 }
  else { re := .flt (readElem fmt e.1), poison := e.2 }

/-- The code written for a value (R267, R268): CINT16 by parts; other formats take the real part. -/
def outputCode (opt fmt : Nat) (v : Val) : Nat :=
  if fmt = 10 then
    writeElem 3 opt v.re.num + 65536 * writeElem 3 opt v.im.num
  else writeElem fmt opt v.re.num

/-! ### Statistics (R306, R307) -/

/-- Formats whose narrowing writes are classified. -/
def classified (fmt : Nat) : Bool := decide (fmt ≤ 3) || decide (5 ≤ fmt ∧ fmt ≤ 8)

def statDefault (_ : Nat) : Stat := {}

/-- The larger of two non-negative FP32 patterns. -/
def maxBits (a b : BitVec 32) : BitVec 32 := if a.toNat < b.toNat then b else a

/-- Largest finite magnitude of a list, FP32. -/
def largestOf (xs : List Num) : BitVec 32 :=
  xs.foldl (fun m x => match x with
    | .fin _ _ _ => maxBits m (BitVec.ofNat 32 (toFp32 (fround false (fabs x))))
    | _ => m) 0

/-- Note a narrowing write of a command: core totals, and the tensor's entry when the tag is mapped and the stream is not
an ADAPT stream. [DEDUCED: log 110] -/
def State.noteNarrow (s : State) (core tag fmt : Nat) (xs : List Num) : State :=
  if classified fmt then
    let cs := xs.map (narrowClass fmt)
    let sat := (cs.filter fun n => n == 1).length
    let unf := (cs.filter fun n => n == 2).length
    let hold (n : Nat) : Nat := min (2 ^ 32 - 1) n
    let s1 := s.onSys fun y => { y with satTotal := min counterMax (y.satTotal + sat), unfTotal := min counterMax (y.unfTotal + unf) }
    s1.onCore core fun k =>
      let adapt := match k.stream with | some r => r.adapt | none => false
      match k.tagMap.find? fun e => decide (e.1 ≤ tag ∧ tag ≤ e.2.1) with
      | none => k
      | some e =>
        if adapt then k
        else
          let old := mapGet statDefault e.2.2 k.stats
          let new : Stat :=
            { sat := hold (old.sat + sat), unf := hold (old.unf + unf), count := hold (old.count + xs.length),
              max := maxBits old.max (largestOf xs) }
          { k with stats := mapSet statDefault e.2.2 new k.stats }
  else s

/-! ### Reductions (R275 to R277) -/

/-- The 64 partials of a list: element i enters partial i mod 64, in ascending order; `none` where no element came. -/
def partials {α : Type} (f : α → α → α) (xs : List α) : List (Option α) :=
  (List.range 64).map fun p =>
    ((List.range ((xs.length + 63 - p) / 64)).filterMap fun j => xs[64 * j + p]?).foldl
      (fun (a : Option α) x => match a with | none => some x | some y => some (f y x)) none

/-- Reduce with the fixed tree; an empty partial enters as `unit` where there is one. -/
def treeReduce {α : Type} (f : α → α → α) (unit : Option α) (xs : List α) : Option α :=
  let ps := (partials f xs).map fun p => match p with | none => unit | some x => some x
  let g (a b : Option α) : Option α := match a, b with
    | some x, some y => some (f x y)
    | some x, none => some x
    | none, b => b
  ((treeFold g 6 ps).head?).getD none

/-- Index of the first best element, NaN first (Table 08-4). -/
def argBest (better : Num → Num → Bool) (xs : List Num) : Nat :=
  match (List.range xs.length).find? fun i => (xs.getD i .nan).isNan with
  | some i => i
  | none => (List.range xs.length).foldl (fun b i => if better (xs.getD i .nan) (xs.getD b .nan) then i else b) 0

/-- −0 < +0 order used by extremes. -/
def fbelow (a b : Num) : Bool := flt a b || (feq a b && a.isNeg && !b.isNeg && a.isZero)

/-- Values one after another (R278). -/
def seqReduce (f : Num → Num → Num) (unit : Option Num) (xs : List Num) : Option Num :=
  match xs with
  | [] => unit
  | x :: rest => some (rest.foldl f x)

/-- One reduction of tapped values: operation codes of Table 06-6; `comb` gives the order of the additions. -/
def reduceWith (comb : (Num → Num → Num) → Option Num → List Num → Option Num) (cls : ChainClass) (opt op : Nat)
    (vs : List Val) : Val :=
  let ieee := ieeeFor opt 9
  let p := vs.any fun v => v.poison
  let res := vs.map fun v => v.re
  let allInt := res.all fun x => match x with | .int _ => true | _ => false
  let ints := res.map Scalar.toInt
  let nums := res.map (Scalar.toFlt ieee)
  let ims := vs.map fun v => v.im.toFlt ieee
  match op with
  | 0 =>
    if cls == .complex then
      { re := .flt ((comb (fadd ieee) (some Num.zero) nums).getD Num.zero),
        im := .flt ((comb (fadd ieee) (some Num.zero) ims).getD Num.zero), poison := p }
    else if allInt then { re := .int (ints.foldl (· + ·) 0), poison := p }
    else { re := .flt ((comb (fadd ieee) (some Num.zero) nums).getD Num.zero), poison := p }
  | 1 =>
    if cls == .complex then
      let sq := (nums.zip ims).map fun e => (complexStage ieee 0x33 e (Num.zero, Num.zero)).1
      { re := .flt ((comb (fadd ieee) (some Num.zero) sq).getD Num.zero), poison := p }
    else if allInt then { re := .int ((ints.map fun v => v * v).foldl (· + ·) 0), poison := p }
    else { re := .flt ((comb (fadd ieee) (some Num.zero) (nums.map fun x => fmul ieee x x)).getD Num.zero), poison := p }
  | 2 => if allInt then { re := .int (ints.foldl max (ints.headD 0)), poison := p }
         else { re := .flt ((comb fmax none nums).getD Num.zero), poison := p }
  | 3 => if allInt then { re := .int (ints.foldl min (ints.headD 0)), poison := p }
         else { re := .flt ((comb fmin none nums).getD Num.zero), poison := p }
  | 4 => { re := .int (argBest (fun a b => fbelow b a) (res.map Scalar.num)), poison := p }
  | 5 => { re := .int (argBest fbelow (res.map Scalar.num)), poison := p }
  | _ => { re := .int ((res.filter fun x => x.num.isNan || !x.num.isZero).length : Nat), poison := p }

/-- A reduction along a step's elements (R276). -/
def reduceVals (cls : ChainClass) (opt op : Nat) (vs : List Val) : Val := reduceWith treeReduce cls opt op vs

/-- A reduction of one lane over drained rows (R278). -/
def reduceRows (cls : ChainClass) (opt op : Nat) (vs : List Val) : Val := reduceWith seqReduce cls opt op vs

/-- Elements a chain takes per cc (R260, R269). -/
def Chain.rate (c : Chain) (cls : ChainClass) : Nat :=
  let base := match cls with
    | .complex => 32
    | .floating => 64
    | .integer w => 2048 / w
  let t := (c.stages.filter fun x => stageKind x.code == some 1).length
  max 2 (base / 2 ^ (t - 2))

/-- A chain over one step's elements: outputs, tapped values. -/
def chainOver (cls : ChainClass) (opt : Nat) (c : Chain) (srcs : List (Nat → Val)) : List Val × List Val :=
  let outs := srcs.map (runStages cls opt c)
  (outs.map fun o => o.getD (c.stages.length - 1) {}, outs.map fun o => o.getD c.redTap {})

end Sys2Proof.Machine
end

