-- ==== Sys2Proof/Machine/Protect.lean ====
section
/-! DEFINITION. The codes of stored data and what a read that meets errors does (R490 to R494, R502, R509, R512). -/

namespace Sys2Proof.Machine

/-! ### The symbol code (R490) -/

/-- One doubling in GF(2^8) modulo 0x11D. -/
def gfDouble (v : Nat) : Nat := if 128 ≤ v then Nat.xor (2 * v) 0x11D else 2 * v

/-- Product in GF(2^8). -/
def gfMul (a b : Nat) : Nat :=
  ((List.range 8).foldl (fun (acc : Nat × Nat) i => (if b.testBit i then Nat.xor acc.1 acc.2 else acc.1, gfDouble acc.2)) (0, a)).1

def gfPow (n : Nat) : Nat := (List.range n).foldl (fun v _ => gfDouble v) 1

/-- Check symbols c_0, c_1, c_2 of information symbols, first symbol the highest coefficient. -/
def symbolChecks (ms : List Nat) : List Nat :=
  let r := ms.foldl (fun (c : Nat × Nat × Nat) m =>
    let f := Nat.xor m c.1
    (Nat.xor c.2.1 (gfMul f 0x07), Nat.xor c.2.2 (gfMul f 0x0E), gfMul f 0x08)) (0, 0, 0)
  [r.1, r.2.1, r.2.2]

/-- S_j of an error pattern: (power of x, value) pairs. -/
def errSyndrome (errs : ReadErrors) (j : Nat) : Nat :=
  errs.foldl (fun a e => Nat.xor a (gfMul e.2.toNat (gfPow (j * e.1 % 255)))) 0

/-- What a read of one protected word reports: the errors left in its data, whether it was corrected, whether it is
uncorrectable. The code is linear, so the error pattern alone decides. -/
structure ReadOutcome where
  left : ReadErrors := []
  corrected : Bool := false
  bad : Bool := false
  deriving DecidableEq, Repr

/-- The decoder of R490 for `k` information symbols. -/
def symbolDecode (k : Nat) (errs : ReadErrors) : ReadOutcome :=
  let s0 := errSyndrome errs 0
  let s1 := errSyndrome errs 1
  let s2 := errSyndrome errs 2
  if s0 = 0 ∧ s1 = 0 ∧ s2 = 0 then { left := errs }
  else
    match (List.range (k + 3)).find? fun p => s0 != 0 && gfMul s1 s1 == gfMul s0 s2 && gfMul s0 (gfPow p) == s1 with
    | some p => { left := errs ++ [(p, BitVec.ofNat 8 s0)], corrected := true }
    | none => { left := errs, bad := true }

/-! ### SECDED (R492) -/

/-- Positions of the data bits, in order. -/
def secdedData : List Nat := (List.range 72).filter fun p => decide (3 ≤ p) && !([4, 8, 16, 32, 64].contains p)

/-- Flipped positions, each counted once per flip. -/
def secdedDecode (flips : List Nat) : ReadOutcome :=
  let syn := flips.foldl (fun a p => Nat.xor a p) 0
  let odd := flips.length % 2 == 1
  let mark (ps : List Nat) : ReadErrors := ps.map fun p => (p, 1)
  if syn = 0 then { left := mark flips, corrected := odd }
  else if odd && decide (syn ≤ 71) then { left := mark (flips ++ [syn]), corrected := true }
  else { left := mark flips, bad := true }

/-! ### A read of protected memory -/

/-- XOR the errors left in a word of `n` data bytes: symbol code, byte i at power `top − i`. -/
def applySymbols (top : Nat) (errs : ReadErrors) (bs : List Byte) : List Byte :=
  errs.foldl (fun l e => if e.1 ≤ top && decide (top - e.1 < l.length) then l.set (top - e.1) ((l.getD (top - e.1) 0) ^^^ e.2) else l) bs

/-- XOR the flips left in an 8-byte word. -/
def applyFlips (errs : ReadErrors) (bs : List Byte) : List Byte :=
  errs.foldl (fun l e =>
    match secdedData.findIdx? fun p => p == e.1 with
    | some i => l.set (i / 8) ((l.getD (i / 8) 0) ^^^ (1#8 <<< (i % 8)))
    | none => l) bs

/-- Storage key of an address: LPDDR6 channel, or 16 + 16 g + macro for Peat (R341). -/
def storageKey (a : Nat) : Option Nat :=
  match regionOf a with
  | .lpddr n => some n
  | .peat g => some (16 + 16 * g + bitsOf a 6 4)
  | _ => none

def ceClass (a : Nat) : Nat :=
  match regionOf a with
  | .lpddr _ => Cls.CE_LPDDR
  | .peat _ => Cls.CE_PEAT
  | .context _ => Cls.CE_CTX
  | _ => Cls.CE_SPAD

/-- Key of a scratchpad or Peat row for field repair (R340, R341, R502): a row is one 64-B line of its bank or macro. [DEDUCED: log 117] -/
def rowKey (a : Nat) : Option Nat :=
  match regionOf a with
  | .scratchpad c =>
    let o := (a - 0x1000000000) % 0x80000
    some (((c * 2) * 16 + bitsOf o 6 3) * 65536 + o / 512)
  | .peat g =>
    let o := (a - 0x1100000000) % 0x1000000
    some (((g * 2 + 1) * 16 + bitsOf o 6 4) * 65536 + o / 1024)
  | _ => none

/-- A row enters the field-repair list, or its hits rise there (R502). [DEDUCED: log 117] -/
def noteRow (key : Nat) (t : Storage) : Storage :=
  let hits := natAt t.rowHits key + 1
  let same (r : RepairRow) : Bool :=
    r.unit == key / 65536 / 32 && r.peat == ((key / 65536 / 16) % 2 == 1) && r.bank == key / 65536 % 16 && r.row == key % 65536
  let t1 := { t with rowHits := natPut t.rowHits key hits }
  if t1.fieldRepair.any same then
    { t1 with fieldRepair := t1.fieldRepair.map fun r => if same r then { r with hits := min 255 (r.hits + 1) } else r }
  else if 16 ≤ hits ∧ t1.fieldRepair.length < 256 then
    { t1 with
      fieldRepair := t1.fieldRepair ++ [{ unit := key / 65536 / 32, peat := (key / 65536 / 16) % 2 == 1, bank := key / 65536 % 16,
                                          row := key % 65536, hits := hits }] }
  else t1

/-- A corrected error is counted, for its storage and for its row (R494, R502). -/
def countCorrected (a : Nat) (s : State) : State :=
  let t1 := match rowKey a with
    | some k => noteRow k s.storage
    | none => s.storage
  let t2 := match storageKey a with
    | some k => { t1 with corrected := natPut t1.corrected k (min (2 ^ 32 - 1) (natAt t1.corrected k + 1)) }
    | none => t1
  { s with storage := t2, sys := s.sys.count (ceClass a) }

/-- A repair queue of 8 entries. -/
def Storage.queue (t : Storage) (k : Nat) : List (Nat × List Byte × List Byte) := mapGet (fun _ => []) k t.repairQueue

def Storage.setQueue (t : Storage) (k : Nat) (q : List (Nat × List Byte × List Byte)) : Storage :=
  { t with repairQueue := mapSet (fun _ => []) k q t.repairQueue }

/-- A corrected word is queued for the scrubber; a full queue drops it (R494). -/
def queueRepair (a : Nat) (stored fixed : List Byte) (s : State) : State :=
  match storageKey a with
  | some k =>
    let q := s.storage.queue k
    if q.length < 8 then { s with storage := s.storage.setQueue k (q ++ [(protectedWord a, stored, fixed)]) } else s
  | none => s

/-- The code of the storage at an address applied to an error pattern. -/
def decodeAt (a : Nat) (errs : ReadErrors) : ReadOutcome :=
  match regionOf a with
  | .context _ => secdedDecode (errs.map Prod.fst)
  | .lpddr _ => symbolDecode 33 errs
  | _ => symbolDecode 32 errs

/-- Bytes of one protected word as a read delivers them. -/
def wordThrough (a : Nat) (o : ReadOutcome) (bs : List Byte) : List Byte :=
  match regionOf a with
  | .context _ => applyFlips o.left bs
  | .lpddr _ => applySymbols 35 o.left bs
  | _ => applySymbols 34 o.left bs

/-- Does an error left in the metadata symbol of a granule turn its POISON bit (R491)? [DEDUCED: log 194] -/
def poisonTurned (a : Nat) (o : ReadOutcome) : Bool :=
  match regionOf a with
  | .lpddr _ => (o.left.filter fun e => e.1 == 3 && e.2.getLsbD 0).length % 2 == 1
  | _ => false

/-- Is the LPDDR6 channel of an address blocked by refresh (R343)? [DEDUCED: log 186] -/
def State.refreshing (s : State) (a : Nat) : Bool :=
  match regionOf a with
  | .lpddr n => decide (s.sys.now < natAt s.storage.refreshUntil n)
  | _ => false

/-- Is the valid bit of the line or page set? A read of one that is not returns zeros and runs no checker (R497). -/
def Sys.lineValid (y : Sys) (a : Nat) : Bool :=
  match validKey a with
  | some k => flagAt y.valid k
  | none => true

/-- Read `n` bytes at a module address through its code; the error pattern meets the first protected word. [DEDUCED: log 194] -/
def readProtected (a n : Nat) (errs : ReadErrors) (unit core tag : Nat) (s : State) : List Byte × List Bool × State :=
  let w := protectedWord a
  let sz := protectedSize a
  let o := if keepsPoison a && s.sys.lineValid a then decodeAt a errs else {}
  let stored := s.sys.peekN w sz
  let word := wordThrough a o stored
  let bytes := (List.range n).map fun i => if a + i < w + sz then word.getD (a + i - w) 0 else s.sys.peek (a + i)
  let marks := (List.range n).map fun i =>
    if a + i < w + sz then o.bad || (s.sys.poisoned (a + i) 1 != poisonTurned a o) else s.sys.poisoned (a + i) 1
  let s1 := s.onSys fun y => y.noteWeightRead a n
  let s2 := if o.corrected then queueRepair a stored word (countCorrected a s1) else s1
  let s3 := if o.bad then s2.onSys fun y =>
      let y1 := y.fault Cls.MEM_UE unit core tag w
      if y.weightRanges.any (fun r => decide (a < r.1 + r.2 ∧ r.1 < a + n)) then { y1 with weightPoison := true } else y1
    else s2
  (bytes, marks, s3)

/-- The 64 lines or pages whose valid bits share a 64-bit word with that of an address, and their size. [DESIGN CHOICE: log 25] -/
def validGroup (a : Nat) : Nat × List Nat :=
  let sz := match regionOf a with
    | .lpddr _ => 4096
    | _ => 64
  (sz, (List.range 64).map fun i => a / (64 * sz) * (64 * sz) + i * sz)

/-- VALID_UE (R499): every bit of the valid word is set; a line that was never written is poisoned. [DESIGN CHOICE: log 25] -/
def validUe (a unit core tag : Nat) (s : State) : State :=
  match validKey a with
  | none => s
  | some _ =>
    let g := validGroup a
    let mark (y : Sys) (k : Nat) : Sys :=
      if flagAt y.valid k then y else { y with valid := flagPut y.valid k true }.markPoison k g.1 true
    s.onSys fun y => (g.2.foldl mark y).fault Cls.VALID_UE unit core tag (a / (64 * g.1) * (64 * g.1))

/-- The same within a core's scratchpad, modulo 512 KiB. -/
def spadMarked (core a : Nat) (bs : List Byte) (marks : List Bool) (y : Sys) : Sys :=
  let room := 524288 - a % 524288
  let y1 := storeMarked (spadByte core a) (bs.take room) marks y
  if bs.length ≤ room then y1
  else (List.range ((bs.length - room + 524287) / 524288)).foldl (fun z i =>
    storeMarked (spadBase core) ((bs.drop (room + 524288 * i)).take 524288) (marks.drop (room + 524288 * i)) z) y1

end Sys2Proof.Machine
end

