-- ==== Sys2Proof/Machine/Sequencer.lean ====
section
/-! DEFINITION. SEQ and SYN commands: repeats, waits, barriers, marks, calls of patch routines, synchronisation objects and
rings' commits and releases (R207 to R215, R353, R354, R361 to R363). -/

namespace Sys2Proof.Machine

/-- Opcodes of Table 06-5. -/
def knownOpcode (o : Nat) : Bool :=
  decide (o ≤ 6) || decide (0x20 ≤ o ∧ o ≤ 0x23) || decide (0x40 ≤ o ∧ o ≤ 0x42) || decide (0x60 ≤ o ∧ o ≤ 0x63)
    || decide (0x80 ≤ o ∧ o ≤ 0x82) || decide (0xA0 ≤ o ∧ o ≤ 0xA4)

/-- An event the stall detector sees (R366). -/
def State.happen (s : State) : State :=
  { s with comp := { s.comp with lastEvent := s.sys.now, quietSince := none } }

/-! ### Ports -/

def moverQueue (k : Core) (q : Nat) : List MoverCmd := mapGet (fun _ => []) q k.movers
def setMoverQueue (k : Core) (q : Nat) (l : List MoverCmd) : Core := { k with movers := mapSet (fun _ => []) q l k.movers }

/-- Is the port idle: 0 loader, 1 streamer with its drain unit, 2 vector engine, 3 Signal Unit, 4 to 7 mover queues (R209,
R247)? -/
def Core.portIdle (k : Core) (p : Nat) : Bool :=
  match p with
  | 0 => k.array.loader.isEmpty
  | 1 => k.array.streamer.isEmpty && k.array.drains.isEmpty
  | 2 => k.vec.isEmpty
  | 3 => k.su.port.isEmpty
  | q => (moverQueue k (q - 4)).isEmpty

def Core.allIdle (k : Core) : Bool := (List.range 8).all k.portIdle && k.signals.isEmpty

/-- The four units a call waits for (R214). -/
def Core.callReady (k : Core) : Bool := (List.range 4).all k.portIdle

/-! ### SEQ -/

def alwaysRoom (_ : Core) (_ : Cmd) : Bool := true

/-- SEQ.NOP; a command word whose opcode is in no table is found here (R193). [DEDUCED: log 118] -/
def seqNop (i : Issue) (s : State) : State :=
  match s.current i with
  | none => s
  | some w =>
    if !knownOpcode w.opcode && !i.ecc then s.cmdFault Cls.ILLEGAL_CMD UnitCode.sequencer i.core.toNat w.tag 0
    else s.issueCmd i 0x00 UnitCode.sequencer (fun w => commonOk w true 0 0 0) alwaysRoom
      (fun p t => t.onCore i.core.toNat fun k => k.complete p.word)

/-- SEQ.END stops issue (R211). -/
def seqEnd (i : Issue) (s : State) : State :=
  s.issueCmd i 0x01 UnitCode.sequencer (fun w => commonOk w true 0 0 0) alwaysRoom fun p t =>
    t.onCore i.core.toNat fun k => { (k.complete p.word) with stream := k.stream.map fun r => { r with ended := true } }

/-- The stream completes when SEQ.END has issued and every port is idle (R211). -/
def streamComplete (c : Nat) (s : State) : State :=
  let k := s.core c
  match k.stream with
  | none => s
  | some r => if r.ended && k.allIdle && s.coreLive c then s.setCore c { k with stream := none } else s

/-- May a repeat open here (R208): depth below 4, range inside the stream and inside every enclosing range? -/
def Stream.mayRepeat (r : Stream) (len : Nat) : Bool :=
  decide (r.reps.length < 4) && decide (r.pc + len < r.first + r.len) && r.reps.all fun x => decide (r.pc + len ≤ x.last)

/-- SEQ.REPEAT (R207, R208). -/
def seqRepeat (i : Issue) (s : State) : State :=
  let c := i.core.toNat
  let inRange := match (s.core c).stream, s.current i with
    | some r, some w => r.mayRepeat (w.param 0 0 16)
    | _, _ => true
  s.issueCmd i 0x02 UnitCode.sequencer
    (fun w => commonOk w true 0 0 0 && decide (1 ≤ w.param 0 0 16 ∧ w.param 0 0 16 ≤ 511)
      && (w.dealt || decide (1 ≤ w.param 2 0 16)) && inRange) alwaysRoom fun p t =>
    t.onCore c fun k =>
      let k1 := k.complete p.word
      let halted := match k.stream with | some r => r.stopped | none => false
      { k1 with stream := (s.core c).stream.map fun r =>
        let len := p.word.param 0 0 16
        let n := p.word.param 2 0 16
        if n = 0 then
          let x := nextInRange (r.pc + len) r.reps
          { r with pc := x.1, reps := x.2, stopped := halted }
        else { r with pc := r.pc + 1, reps := { first := r.pc + 1, last := r.pc + len, left := n } :: r.reps, stopped := halted } }

/-- The condition of a SEQ.WAIT (R209). -/
def Core.waitHolds (k : Core) (w : Cmd) : Bool :=
  let x := w.param 1 0 8
  let th := w.param 4 0 32
  match w.param 0 0 8 with
  | 0 => decide (0 ≤ (k.obj x - BitVec.ofNat 32 th).toInt)
  | 1 => decide (th ≤ (k.ring x).ready)
  | 2 => decide (th ≤ (k.ring x).space)
  | _ => (List.range 8).all fun p => w.param 2 p 1 == 0 || k.portIdle p

def waitLegal (k : Core) (w : Cmd) : Bool :=
  commonOk w true 0 0 0 && decide (w.param 0 0 8 ≤ 3) &&
  (match w.param 0 0 8 with
   | 0 => decide (w.param 1 0 8 < 16)
   | 3 => true
   | _ => decide (w.param 1 0 8 < 8) && decide (1 ≤ w.param 4 0 32 ∧ w.param 4 0 32 ≤ 15) && (k.ring (w.param 1 0 8)).enabled)

/-- SEQ.WAIT: issues when its condition holds; until then the core waits (R209). -/
def seqWait (i : Issue) (s : State) : State :=
  let c := i.core.toNat
  match s.current i with
  | none => s
  | some w =>
    if w.opcode == 0x04 && waitLegal (s.core c) w && !i.ecc && !(s.core c).waitHolds w then
      s.onCore c fun k => { k with stream := k.stream.map fun r => { r with waiting := true } }
    else s.issueCmd i 0x04 UnitCode.sequencer (waitLegal (s.core c)) alwaysRoom
      (fun p t => t.onCore c fun k => k.complete p.word)

/-- Key of a barrier: scope 0 cluster, 1 quarter, 2 device; `inst` the cluster or quarter. -/
def barrierKey (scope inst num : Nat) : Nat := (scope * 64 + inst) * 16 + num

/-- The instance of a scope that a core belongs to. -/
def barrierInst (scope core : Nat) : Nat :=
  match scope with | 0 => core / 16 | 1 => core / 256 | _ => 0

/-! The tree of R32: a counter in every cluster controller and quarter supervisor, and quarter 0's for the device. -/

/-- Key of a barrier's counter at a node of the tree: cluster g is g, quarter q is 64 + q, the device is 68. -/
def barrierNode (key node : Nat) : Nat := key * 128 + node
def State.barrierCount (s : State) (key node : Nat) : Nat := natAt s.comp.barCounts (barrierNode key node)
def State.countBarrier (s : State) (key node : Nat) : State :=
  { s with comp := { s.comp with barCounts := natPut s.comp.barCounts (barrierNode key node) (s.barrierCount key node + 1) } }

/-- Participants of a cluster, clusters of a quarter that have any, and quarters that have any, as the job load set them (R33). -/
def State.clusterParts (s : State) (g : Nat) : Nat := ((s.comp.participants.map Prod.fst).filter fun c => c / 16 == g).length
def State.quarterParts (s : State) (q : Nat) : Nat := ((List.range 16).filter fun i => decide (0 < s.clusterParts (16 * q + i))).length
def State.deviceParts (s : State) : Nat := ((List.range 4).filter fun q => decide (0 < s.quarterParts q)).length

/-- An arrival rises through the tree as far as the scope reaches: a completed cluster counts at its quarter, a completed quarter at
the device (R32). An arrival stays counted whatever becomes of its core. -/
def barrierArrive (scope key c : Nat) (s : State) : State :=
  if !flagAt s.comp.participants c then s
  else
    let g := c / 16
    let q := c / 256
    let s1 := s.countBarrier key g
    if scope = 0 || s1.barrierCount key g != s1.clusterParts g then s1
    else
      let s2 := s1.countBarrier key (64 + q)
      if scope = 1 || s2.barrierCount key (64 + q) != s2.quarterParts q then s2 else s2.countBarrier key 68

/-- Has the barrier's last arrival been counted? [DEDUCED: log 270] -/
def State.barrierFull (s : State) (scope inst key : Nat) : Bool :=
  match scope with
  | 0 => decide (0 < s.clusterParts inst) && s.barrierCount key inst == s.clusterParts inst
  | 1 => decide (0 < s.quarterParts inst) && s.barrierCount key (64 + inst) == s.quarterParts inst
  | _ => decide (0 < s.deviceParts) && s.barrierCount key 68 == s.deviceParts

/-- SEQ.BARRIER: the core arrives and holds issue until release (R210). [DEDUCED: log 270] -/
def seqBarrier (i : Issue) (s : State) : State :=
  let c := i.core.toNat
  s.issueCmd i 0x05 UnitCode.sequencer
    (fun w => commonOk w true 0 0 0 && decide (w.param 0 6 2 ≤ 2)) alwaysRoom fun p t =>
    let scope := p.word.param 0 6 2
    let key := barrierKey scope (barrierInst scope c) (p.word.param 0 0 4)
    (barrierArrive scope key c (t.onCore c fun k =>
      let k1 := k.complete p.word
      { k1 with stream := k1.stream.map fun r => { r with barrier := some key, barrierTag := p.word.tag } })).happen

/-- Release of a barrier whose last arrival has been counted: its counters return to zero, every participant that waits at it goes
on, and the generation changes (R32, R33, R362, R363). [DEDUCED: log 213] -/
def barrierRelease (scope inst num : Nat) (s : State) : State :=
  let key := barrierKey scope inst num
  if decide (num < 16) && s.barrierFull scope inst key then
    let free (k : Core) : Core := { k with stream := k.stream.map fun r => if r.barrier = some key then { r with barrier := none } else r }
    let s1 := { s with cores := s.cores.map fun (e : Nat × Core) => (e.1, free e.2) }
    { s1 with comp := { s1.comp with
      barCounts := mapFilter (fun n => n / 128 != key) s1.comp.barCounts,
      barrierGen := flagPut s1.comp.barrierGen key (!flagAt s1.comp.barrierGen key) } }.happen
  else s

/-- SEQ.MARK (R219). -/
def seqMark (i : Issue) (s : State) : State :=
  s.issueCmd i 0x06 UnitCode.sequencer (fun w => commonOk w true 0 0 0) alwaysRoom fun p t =>
    (t.onSys fun y => y.traceWrite i.core.toNat 2 p.word.tag i.held i.cycle.toNat t.job.slot (p.word.param 0 0 64)).onCore
      i.core.toNat fun k => k.complete p.word

/-! ### SEQ.CALL (R213 to R217) -/

/-- ROM routines of Table 06-8. -/
def romRoutines : List Nat :=
  [0x00, 0x01, 0x02, 0x08, 0x09, 0x10, 0x11, 0x20, 0x21, 0x22, 0x23, 0x24, 0x25, 0x26, 0x38, 0x40, 0x41, 0x48, 0x49, 0x4A]

def serviceRoutine (r : Nat) : Bool := decide (r ∈ [0x40, 0x41, 0x48, 0x49, 0x4A])

/-- Is a call of library entry `r` served from patch RAM: an entry 0xC0 to 0xFF that the firmware fills, or a ROM entry that its
redirect map sends there (R213)? [UNVERIFIED: log 259] -/
def State.patched (s : State) (r : Nat) : Bool := s.heron.patches.getLsbD r

/-- A call of ROM routine `r` that the firmware does not redirect: held until the four units are idle; MODE for a service routine in
the job state; `legal` gives the routine's own rules on operands and arguments (Table 06-8), and `run` its effect. A core that the
routine's own outcome has fenced returns nothing (R224). [DEDUCED: log 223; DESIGN CHOICE: log 265] -/
def callRoutine (i : Issue) (r : Nat) (legal : Core → PortCmd → Bool) (run : PortCmd → State → State) (s : State) : State :=
  let c := i.core.toNat
  match s.current i with
  | none => s
  | some w =>
    if w.opcode != 0x03 || w.param 0 0 8 != r || s.patched r then s
    else if (s.core c).inJob && serviceRoutine r && !i.ecc then s.cmdFault Cls.MODE UnitCode.sequencer c w.tag r
    else
      s.issueCmd i 0x03 UnitCode.sequencer (fun w => commonOk w true 2 2 2) (fun k _ => k.callReady) fun p t =>
        if legal (t.core c) p then
          let u := run p t
          if u.sys.coreFenced c then u else u.onCore c fun k => k.complete p.word
        else s.cmdFault Cls.ILLEGAL_CMD UnitCode.sequencer c w.tag r

/-! ### SYN -/

/-- Room for another ordered signal: 8 wait at most (R196). -/
def Core.orderedRoom (k : Core) (w : Cmd) : Bool :=
  w.param 2 0 3 == 0 || decide ((k.signals.filter fun x => x.after.isSome).length < 8)

/-- SYN.SET and SYN.ADD (R212). -/
def synSet (i : Issue) (s : State) : State :=
  s.issueCmd i 0xA0 UnitCode.sequencer (fun w => commonOk w true 0 0 0 && decide (w.param 0 0 8 < 16)) alwaysRoom fun p t =>
    (t.onCore i.core.toNat fun k => (k.complete p.word).setObj (p.word.param 0 0 8) (BitVec.ofNat 32 (p.word.param 4 0 32))).happen

def synAdd (i : Issue) (s : State) : State :=
  s.issueCmd i 0xA1 UnitCode.sequencer (fun w => commonOk w true 0 0 0 && decide (w.param 0 0 8 < 16)) alwaysRoom fun p t =>
    (t.onCore i.core.toNat fun k =>
      (k.complete p.word).setObj (p.word.param 0 0 8) (k.obj (p.word.param 0 0 8) + BitVec.ofNat 32 (p.word.param 4 0 32))).happen

/-- Serial of the last command in a mover queue, if it has any. -/
def lastSerial (k : Core) (q : Nat) : Option Nat := ((moverQueue k q).getLast?).map fun m => m.serial

/-- Must a signal wait for the writes its mover queue has been given (R196)? -/
def Signal.unready (x : Signal) (k : Core) : Bool :=
  match x.after with
  | none => false
  | some (q, n) => (moverQueue k q).any fun m => decide (m.serial ≤ n)

/-- The signals that may leave a core now, and those that stay: a signal also stays behind an earlier one to the same object
(R196, R212). -/
def Core.splitSignals (k : Core) : List Signal × List Signal :=
  k.signals.foldl (fun (a : List Signal × List Signal) x =>
    if x.unready k || a.2.any (fun y => y.target == x.target) then (a.1, a.2 ++ [x]) else (a.1 ++ [x], a.2)) ([], [])

/-- Signals whose mover writes have been acknowledged leave the core, in issue order to each object. -/
def releaseSignals (c : Nat) (s : State) : State :=
  let r := (s.core c).splitSignals
  { (s.onCore c fun k => { k with signals := r.2 }) with comp := { s.comp with signals := s.comp.signals ++ r.1 } }

/-- SYN.SIGNAL: sent at once, or after the writes a mover queue has been given; never before an earlier signal of the core to the
same object (R196, R212, R361). -/
def synSignal (i : Issue) (s : State) : State :=
  let c := i.core.toNat
  s.issueCmd i 0xA2 UnitCode.sequencer
    (fun w => commonOk w true 0 0 0 && decide (w.param 0 0 16 < 2 ^ 14) && decide (w.param 2 0 3 ≤ 4)) Core.orderedRoom fun p t =>
    let q := p.word.param 2 0 3
    releaseSignals c (t.onCore c fun k =>
      let k1 := k.complete p.word
      let sig : Signal :=
        { core := c, target := BitVec.ofNat 14 (p.word.param 0 0 16), value := BitVec.ofNat 32 (p.word.param 4 0 32),
          tag := BitVec.ofNat 16 p.word.tag, after := if q = 0 then none else (lastSerial k1 (q - 1)).map fun n => (q - 1, n) }
      { k1 with signals := k1.signals ++ [sig] })

/-- The oldest signal of a source core reaches its object, or is discarded at a fenced core (R361). [DEDUCED: log 213] -/
def signalArrival (source : Nat) (s : State) : State :=
  match s.comp.signals.find? fun x => x.core == source with
  | none => s
  | some x =>
    let s1 := { s with comp := { s.comp with signals := s.comp.signals.erase x } }
    let c := x.target.toNat / 16
    if s1.sys.coreFenced c then
      s1.onSys fun y => y.fault Cls.FENCED_ACCESS UnitCode.sequencer source x.tag.toNat x.target.toNat
    else (s1.onCore c fun k => k.setObj (x.target.toNat % 16) (k.obj (x.target.toNat % 16) + x.value)).happen

/-- SIGNAL_DONE of the oldest completed command of a core (R361). -/
def signalDone (c : Nat) (s : State) : State :=
  let k := s.core c
  match k.dones with
  | [] => s
  | o :: rest => (s.setCore c ({ k with dones := rest }.setObj o (k.obj o + 1))).happen

def ringLegal (k : Core) (w : Cmd) : Bool :=
  commonOk w true 0 0 0 && decide (w.param 0 0 8 < 8) && decide (1 ≤ w.param 1 0 8 ∧ w.param 1 0 8 ≤ 15) && (k.ring (w.param 0 0 8)).enabled

/-- SYN.RING_COMMIT (R354). -/
def ringCommit (i : Issue) (s : State) : State :=
  let c := i.core.toNat
  s.issueCmd i 0xA3 UnitCode.sequencer (ringLegal (s.core c)) alwaysRoom fun p t =>
    let r := (t.core c).ring (p.word.param 0 0 8)
    let n := p.word.param 1 0 8
    if r.mcast || r.feeds || decide (r.slots < r.ready + n) then t.cmdFault Cls.RING_ERROR UnitCode.sequencer c p.word.tag (p.word.param 0 0 8)
    else (t.onCore c fun k => (k.complete p.word).setRing (p.word.param 0 0 8) { r with tail := r.tail + BitVec.ofNat 32 n }).happen

/-- SYN.RING_RELEASE (R354). -/
def ringRelease (i : Issue) (s : State) : State :=
  let c := i.core.toNat
  s.issueCmd i 0xA4 UnitCode.sequencer (ringLegal (s.core c)) alwaysRoom fun p t =>
    let r := (t.core c).ring (p.word.param 0 0 8)
    let n := p.word.param 1 0 8
    if r.ready < n then t.cmdFault Cls.RING_ERROR UnitCode.sequencer c p.word.tag (p.word.param 0 0 8)
    else (t.onCore c fun k => (k.complete p.word).setRing (p.word.param 0 0 8) { r with head := r.head + BitVec.ofNat 32 n }).happen

end Sys2Proof.Machine
end

