-- ==== Sys2Proof/Machine/Vector.lean ====
section
/-! DEFINITION. The vector engine's commands: VEC.CHAIN, VEC.SIDEADD and VEC.DESC (R259 to R286, R301 to R303). -/

namespace Sys2Proof.Machine

/-! ### VEC.CHAIN -/

/-- The chain of a VEC.CHAIN command. -/
def Cmd.chain (w : Cmd) : Chain := parseChain (w.param 0 0 384)

def Cmd.chainFmts (w : Cmd) : List Nat := [w.opFmt 0, w.opFmt 1] ++ (if w.opValid 2 then [w.opFmt 2] else [])

def vecChainLegal (w : Cmd) : Bool :=
  let c := w.chain
  commonOk w false 1 1 2 && decide (1 ≤ c.elems ∧ c.elems ≤ 4096) && chainLegal c false w.chainFmts w.chainFmts.tail (w.opValid 2)

/-- Sources of element `i` of a step. -/
def elemSources (y : Sys) (core : Nat) (w : Cmd) (cls : ChainClass) (c : Chain) (a1 a2 i : Nat) : Nat → Val
  | 0 => inputVal (w.opFmt 1) (y.elem core (w.opFmt 1) a1 i)
  | 1 => inputVal (w.opFmt 2) (y.elem core (w.opFmt 2) a2 i)
  | 2 => immVal cls c.imm0
  | 3 => immVal cls c.imm1
  | _ => {}

/-- Write a chain's outputs in a format and note the narrowing. -/
def writeOutputs (core tag fmt addr : Nat) (outs : List Val) (s : State) : State :=
  let s1 := s.onSys fun y => y.writeElems core fmt addr (outs.map fun v => (outputCode s.ieeeOpt fmt v, v.poison))
  s1.noteNarrow core tag fmt (outs.map fun v => v.re.num)

/-- Write one reduction result (R275). [DEDUCED: log 110] -/
def writeReduction (core : Nat) (cls : ChainClass) (c : Chain) (n : Nat) (taps : List Val) (s : State) : State :=
  if c.reduce then
    let v := reduceVals cls s.ieeeOpt c.redOp taps
    s.onSys fun y => y.writeElems core c.redFmt (c.redAddr + n * elemBytes c.redFmt) [(outputCode s.ieeeOpt c.redFmt v, v.poison)]
  else s

/-- The elements of one step that are read in one cc: their results land before the elements of a later cc are read (R199, R272).
`src` gives the sources of an element; answers the tapped values with those before them. [DEDUCED: log 224] -/
def chainGroup (core tag fmt addr : Nat) (cls : ChainClass) (c : Chain) (src : Sys → Nat → Nat → Val) (len : Nat)
    (a : State × List Val) (g : Nat) : State × List Val :=
  let r := c.rate cls
  let first := g * r
  let o := chainOver cls a.1.ieeeOpt c ((List.range (min r (len - first))).map fun i => src a.1.sys (first + i))
  (writeOutputs core tag fmt (addr + first * fmtBits fmt / 8) o.1 a.1, a.2 ++ o.2)

/-- One step of a VEC.CHAIN, cc by cc, and then its reduction. [DEDUCED: log 224] -/
def chainStep (core : Nat) (p : PortCmd) (n : Nat) (s : State) : State :=
  let w := p.word
  let c := w.chain
  let cls := chainClass c w.chainFmts
  let src (y : Sys) (i : Nat) : Nat → Val := elemSources y core w cls c (p.addr 1 n) (p.addr 2 n) i
  let r := (List.range ((c.elems + c.rate cls - 1) / c.rate cls)).foldl
    (chainGroup core w.tag (w.opFmt 0) (p.addr 0 n) cls c src c.elems) (s, [])
  writeReduction core cls c n r.2 r.1

/-! ### VEC.SIDEADD (R301 to R303) -/

/-- The exact sum of two numbers; zeros by ADD's rule. -/
def addExact (a b : Num) : Num :=
  match a, b with
  | .nan, _ | _, .nan => .nan
  | .inf x, .inf y => if x == y then .inf x else .nan
  | .inf x, _ => .inf x
  | _, .inf y => .inf y
  | .fin _ _ _, .fin _ _ _ =>
    let f := addFrac a.frac b.frac
    if f.1 = 0 then .fin (a.isNeg && b.isNeg) 0 0 else .fin (decide (f.1 < 0)) f.1.natAbs (-(Nat.log2 f.2 : Int))

/-- One side-list entry. -/
def sideEntry (core : Nat) (p : PortCmd) (n : Nat) (s : State) : State :=
  let w := p.word
  let fmt := w.opFmt 0
  let e := (p.base1 + 8 * n) % 524288
  if s.sys.spadPoison core e 8 then
    let s1 := s.onSys fun y => y.faultWith false Cls.SIDE_POISON UnitCode.vector core w.tag n
    let r := s1.comp.sideRecord <|> some (faultRecord Cls.SIDE_POISON UnitCode.vector core w.tag (s.sys.airCopy (core / 256)) n)
    { s1 with comp := { s1.comp with sideRecord := r } }
  else
    let idx := bytesToNat (s.sys.spadRead core e 4)
    let val := fp16.decode (bytesToNat (s.sys.spadRead core (e + 4) 2))
    let a := (p.base0 + idx * elemBytes fmt) % 524288
    let old := s.sys.elem core fmt a 0
    let sum := addExact (readElem fmt old.1) val
    let s1 := s.onSys fun y => y.writeElems core fmt a [(writeElem fmt s.ieeeOpt sum, old.2)]
    s1.noteNarrow core w.tag fmt [sum]

/-- The most entries a side list can have: 1/64 of the elements of the largest tensor a scratchpad holds (Table 06-6). The command
does not carry its tensor's size. [DESIGN CHOICE: log 225] -/
def sideLimit (fmt : Nat) : Nat := 524288 / elemBytes fmt / 64

/-! ### VEC.DESC (R282 to R284) -/

/-- A tensor descriptor's 96 bytes as a number (Table 08-5). -/
abbrev Desc := Nat

def Desc.at (d : Desc) (o n : Nat) : Nat := bitsOf d (8 * o) (8 * n)
def Desc.op (d : Desc) : Nat := bitsOf d 0 8
def Desc.dims (d : Desc) : Nat := bitsOf d 8 8
def Desc.fmt (d : Desc) : Nat := bitsOf d 16 8
def Desc.count (d : Desc) (i : Nat) : Nat := bitsOf d (64 + 32 * i) 32
def Desc.stop (d : Desc) : Bool := d.testBit 25

def Desc.total (d : Desc) : Nat := ((List.range d.dims).map d.count).foldl (· * ·) 1

/-- Address of the n-th element of the destination (`src` false) or source walk (R203 over DIMS dimensions). -/
def Desc.addr (d : Desc) (src : Bool) (n : Nat) : Nat :=
  let base := bitsOf d (if src then 8 * 0x2C else 8 * 0x18) 19
  let st (i : Nat) : Int := toSigned 32 (bitsOf d ((if src then 8 * 0x30 else 8 * 0x1C) + 32 * i) 32)
  let idx (i : Nat) : Nat := n / ((List.range i).map d.count).foldl (· * ·) 1 % d.count i
  (((base : Int) + ((List.range d.dims).map fun i => (idx i : Int) * st i).foldl (· + ·) 0) % 524288).toNat

def Desc.chain (d : Desc) (y : Sys) (core : Nat) : Chain :=
  parseChain (bytesToNat (y.spadRead core (bitsOf d (8 * 0x50) 19) 48))

/-- Fields in range (Table 08-5). [DEDUCED: log 109] -/
def Desc.ok (d : Desc) (y : Sys) (core : Nat) : Bool :=
  decide (d.op ≤ 5) && decide (1 ≤ d.dims ∧ d.dims ≤ 4) && fmtValid d.fmt && bitsOf d 26 6 == 0
    && ((List.range d.dims).all fun i => decide (1 ≤ d.count i ∧ d.count i ≤ 2 ^ 20))
    && (d.op != 2 || chainLegal (d.chain y core) false [d.fmt, d.fmt] [d.fmt] false)

/-- The pattern of the granule at address `a`: PATTERN XOR a[18:3] four times. -/
def Desc.pattern (d : Desc) (a : Nat) : Nat :=
  let g := bitsOf a 3 16
  Nat.xor (bitsOf d (8 * 0x40) 64) (g + g * 2 ^ 16 + g * 2 ^ 32 + g * 2 ^ 48)

/-- Result of a comparison so far: mismatches, first mismatch, poison, stopped. -/
structure Compared where
  count : Nat := 0
  first : Option Nat := none
  poison : Bool := false
  stopped : Bool := false
  deriving DecidableEq, Repr

def Compared.note (r : Compared) (n : Nat) (equal poison stop : Bool) : Compared :=
  if equal && !poison then r
  else { count := r.count + 1, first := r.first <|> some n, poison := r.poison || poison, stopped := r.stopped || stop }

/-- Compare element by element with what `f` gives: (equal, poisoned). -/
def compareAll (d : Desc) (f : Nat → Bool × Bool) : Compared :=
  (List.range d.total).foldl (fun r n => if r.stopped then r else r.note n (f n).1 (f n).2 d.stop) {}

/-- The status record (R284). -/
def writeStatus (core : Nat) (d : Desc) (r : Compared) (y : Sys) : Sys :=
  y.spadWrite core (bitsOf d (8 * 0x48) 19)
    (natToBytes 4 (1 + 2 * (decide (r.count ≠ 0)).toNat + 4 * r.poison.toNat) ++ natToBytes 4 r.count ++ natToBytes 8 (r.first.getD 0)) false

/-- A descriptor's chain: each dimension-0 row is one step (R283). -/
def descChain (core tag : Nat) (d : Desc) (s : State) : State :=
  let c := d.chain s.sys core
  let cls := chainClass c [d.fmt, d.fmt]
  (List.range (d.total / d.count 0)).foldl (fun a row =>
    let n0 := row * d.count 0
    let src (y : Sys) (i : Nat) : Nat → Val := fun x =>
      match x with
      | 0 => inputVal d.fmt (y.elem core d.fmt (d.addr true (n0 + i)) 0)
      | 2 => immVal cls c.imm0
      | 3 => immVal cls c.imm1
      | _ => {}
    let r := c.rate cls
    let out := (List.range ((d.count 0 + r - 1) / r)).foldl (fun (b : State × List Val) g =>
      let m := min r (d.count 0 - g * r)
      let o := chainOver cls b.1.ieeeOpt c ((List.range m).map fun i => src b.1.sys (g * r + i))
      ((List.range m).foldl (fun t i => writeOutputs core tag d.fmt (d.addr false (n0 + g * r + i)) [o.1.getD i {}] t) b.1, b.2 ++ o.2)) (a, [])
    writeReduction core cls c row out.2 out.1) s

/-- One descriptor (R283, R284). [DEDUCED: log 109] -/
def runDesc (core tag : Nat) (d : Desc) (s : State) : State :=
  let dst (n : Nat) : Nat := d.addr false n
  let src (n : Nat) : Nat := d.addr true n
  let gran (n : Nat) : Nat := dst n / 8 * 8
  match d.op with
  | 0 =>
    let v := bitsOf d (8 * 0x40) (fmtBits d.fmt)
    (s.onSys fun y => (List.range d.total).foldl (fun z n => z.writeElems core d.fmt (dst n) [(v, false)]) y).onSys (writeStatus core d {})
  | 1 => (s.onSys fun y => (List.range d.total).foldl (fun z n =>
        let m := elemBytes d.fmt
        spadMarked core (dst n) (z.spadRead core (src n) m) ((List.range m).map fun j => z.spadPoison core (src n + j) 1) z) y).onSys
      (writeStatus core d {})
  | 2 => (descChain core tag d s).onSys (writeStatus core d {})
  | 3 =>
    let m := elemBytes d.fmt
    let r := compareAll d fun n =>
      (s.sys.spadRead core (src n) m == s.sys.spadRead core (dst n) m, s.sys.spadPoison core (src n) m || s.sys.spadPoison core (dst n) m)
    s.onSys (writeStatus core d r)
  | 4 => (s.onSys fun y => (List.range d.total).foldl (fun z n => z.spadWrite core (gran n) (natToBytes 8 (d.pattern (gran n))) false) y).onSys
      (writeStatus core d {})
  | _ =>
    let r := compareAll d fun n =>
      (bytesToNat (s.sys.spadRead core (gran n) 8) == d.pattern (gran n), s.sys.spadPoison core (gran n) 8)
    s.onSys (writeStatus core d r)

/-- Run descriptors from an address along LINK, at most 1,024 of them. -/
def runDescs (core tag : Nat) : Nat → Nat → State → State
  | 0, _, s => s.cmdFault Cls.ILLEGAL_CMD UnitCode.vector core tag 0
  | fuel + 1, a, s =>
    let d : Desc := bytesToNat (s.sys.spadRead core a 96)
    if a % 32 ≠ 0 || s.sys.spadPoison core a 96 || !d.ok s.sys core then s.cmdFault Cls.ILLEGAL_CMD UnitCode.vector core tag a
    else
      let s1 := runDesc core tag d s
      if d.testBit 24 then runDescs core tag fuel (bitsOf d 32 19) s1 else s1

/-! ### The port (R196, R197, R270, R286) -/

/-- Room at the vector engine's port: one command executing and one pending. -/
def vecRoom (k : Core) (_ : Cmd) : Bool := decide (k.vec.length < 2)

/-- A command enters the port. -/
def enqueueVec (c : Nat) (p : PortCmd) (s : State) : State := s.onCore c fun k => { k with vec := k.vec ++ [{ cmd := p }] }

/-- Parts of a command still to do: steps of a chain, or the whole of a side-list correction or descriptor walk. -/
def VecCmd.left (v : VecCmd) : Nat := if v.cmd.word.opcode = 0x40 then max 1 (v.cmd.word.steps - v.step) else 1

/-- The executing command does its next part, whose results land; after the last it completes and the pending one starts. -/
def vecStep (core : Nat) (s : State) : State :=
  match (s.core core).vec with
  | [] => s
  | v :: rest =>
    let w := v.cmd.word
    let s1 := match w.opcode with
      | 0x40 => chainStep core v.cmd v.step s
      | 0x42 => (List.range (w.param 0 0 32)).foldl (fun a n => sideEntry core v.cmd n a) s
      | _ => runDescs core w.tag 1024 (w.param 0 0 19) s
    if v.left ≤ 1 then s1.onCore core fun k => { (k.complete w) with vec := rest }
    else s1.onCore core fun k => { k with vec := { v with step := v.step + 1 } :: rest }

/-- The vector engine finishes every command at its port: so the model keeps the order in which the schedule has a later command of
another unit find the results (R198). [DESIGN CHOICE: log 226] -/
def vecRun (core : Nat) (s : State) : State :=
  (List.range (((s.core core).vec.map VecCmd.left).foldl (· + ·) 0)).foldl (fun a _ => vecStep core a) s

/-- Time passes with no command waiting: the vector engine of every core that can act does its next part. [DESIGN CHOICE: log 226] -/
def State.coreClock (s : State) : State :=
  (s.cores.map Prod.fst).foldl (fun a c => if a.coreLive c then vecStep c a else a) s

/-- VEC.CHAIN: checked and handed to the vector engine (R196, R262). -/
def vecChain (i : Issue) (s : State) : State :=
  s.issueCmd i 0x40 UnitCode.vector vecChainLegal vecRoom fun p t => enqueueVec i.core.toNat p t

/-- VEC.SIDEADD (R302): a misaligned list is MISALIGNED at issue. [DESIGN CHOICE: log 225] -/
def vecSideAdd (i : Issue) (s : State) : State :=
  let c := i.core.toNat
  let misaligned := match s.current i with
    | some w => (match (s.core c).base w 1 with | some b => b % 8 != 0 | none => false)
    | none => false
  let legal (w : Cmd) : Bool :=
    commonOk w true 1 1 0 && (w.opFmt 0 == 7 || w.opFmt 0 == 8 || w.opFmt 0 == 9) && w.opFmt 1 == 2
      && decide (w.param 0 0 32 ≤ sideLimit (w.opFmt 0))
  match s.current i with
  | none => s
  | some w =>
    if w.opcode == 0x42 && !i.ecc && legal w && misaligned then s.cmdFault Cls.MISALIGNED UnitCode.vector c w.tag 0
    else s.issueCmd i 0x42 UnitCode.vector legal vecRoom fun p t => enqueueVec c p t

/-- VEC.DESC whose first descriptor has operation `op`; one with no operation of Table 08-5 is met as a FILL. MODE in the
job state (R217). [DEDUCED: log 109] -/
def vecDesc (op : Nat) (i : Issue) (s : State) : State :=
  let c := i.core.toNat
  match s.current i with
  | none => s
  | some w =>
    let first := (s.sys.peek (spadByte c (w.param 0 0 19))).toNat
    if w.opcode != 0x41 || !(first == op || (op == 0 && decide (5 < first))) then s
    else if (s.core c).inJob && !i.ecc then s.cmdFault Cls.MODE UnitCode.vector c w.tag 0
    else s.issueCmd i 0x41 UnitCode.vector (fun w => commonOk w true 0 0 0) vecRoom fun p t => enqueueVec c p t

end Sys2Proof.Machine
end

