-- ==== Sys2Proof/Machine/Array.lean ====
section
/-! DEFINITION. The matrix array: weight latches and swaps, streams and their accumulators, drains and epilogues
(R225 to R258). Cycle counts are outside the model: a command runs as soon as the array can run it. -/

namespace Sys2Proof.Machine

/-! ### Formats (Tables 07-2, 07-4) -/

def eightBit (f : Nat) : Bool := f == 1 || f == 2
def floatEight (f : Nat) : Bool := f == 5 || f == 6

/-- Accepted pairs of stationary and streamed format. -/
def pairOk (st x : Nat) : Bool :=
  (eightBit st && eightBit x) || (st == 0 && (eightBit x || x == 0)) || (floatEight st && floatEight x)
    || (st == x && decide (st ∈ [3, 7, 8, 9, 10]))

/-- Formats the array takes at all: every format but INT32. -/
def arrayFmt (f : Nat) : Bool := fmtValid f && f != 4

/-- Accumulator kind of a stationary format: 0 INT40, 1 FP32, 2 complex INT40. -/
def accKind (st : Nat) : Nat := if fmtInt st then 0 else if st = 10 then 2 else 1

/-- Narrowing pairs without an epilogue. -/
def drainOk (kind fmt : Nat) : Bool :=
  match kind with
  | 0 => decide (fmt ∈ [4, 3, 1])
  | 1 => decide (fmt ∈ [9, 7, 8, 5, 6])
  | _ => fmt == 10

/-! ### Lanes (R240, R241) -/

/-- A lane's value: INT40 in `i`, complex INT40 in `i` and `j`, FP32 in `f`. -/
structure Lane where
  i : Int := 0
  j : Int := 0
  f : Num := Num.zero
  deriving DecidableEq, Repr

def laneOf (kind v : Nat) : Lane :=
  match kind with
  | 0 => { i := toSigned 40 v }
  | 1 => { f := ofFp32 (bitsOf v 0 32) }
  | _ => { i := toSigned 40 v, j := toSigned 40 (bitsOf v 40 40) }

def laneBits (kind : Nat) (l : Lane) : Nat :=
  match kind with
  | 0 => ofSigned 40 l.i
  | 1 => toFp32 l.f
  | _ => ofSigned 40 l.i + 2 ^ 40 * ofSigned 40 l.j

/-- Add one lane to another, with the mark of an INT40 saturation. -/
def laneAdd (kind : Nat) (ieee : Bool) (a b : Lane) : Lane × Bool :=
  match kind with
  | 1 => ({ f := fadd ieee a.f b.f }, false)
  | _ =>
    let i := satSigned 40 (a.i + b.i)
    let j := satSigned 40 (a.j + b.j)
    ({ i := i, j := j }, decide (i ≠ a.i + b.i ∨ j ≠ a.j + b.j))

/-- Sum of products of a streamed row with a stationary row or column, by kind. [DEDUCED: log 105] -/
def dotLane (kind : Nat) (ieee : Bool) (stFmt xFmt : Nat) (w x : List Nat) : Lane :=
  let ps := w.zip x
  match kind with
  | 0 => { i := (ps.map fun e => (readElem stFmt e.1).roundInt * (readElem xFmt e.2).roundInt).foldl (· + ·) 0 }
  | 1 => { f := adderTree ieee (ps.map fun e => fmul ieee (readElem stFmt e.1) (readElem xFmt e.2)) }
  | _ =>
    let re (v : Nat) : Int := toSigned 16 v
    let im (v : Nat) : Int := toSigned 16 (v / 65536)
    { i := (ps.map fun e => re e.1 * re e.2 - im e.1 * im e.2).foldl (· + ·) 0,
      j := (ps.map fun e => re e.1 * im e.2 + im e.1 * re e.2).foldl (· + ·) 0 }

/-- The 32-bit sum of element codes (R232, R242): INT32, FP32 in the order of R276, or CINT16 with each part saturated. [DEDUCED: log 105, 111; DESIGN CHOICE: log 106] -/
def sum32 (kind : Nat) (ieee : Bool) (fmt : Nat) (xs : List Nat) : Nat :=
  match kind with
  | 0 => ofSigned 32 (satSigned 32 ((xs.map fun v => (readElem fmt v).roundInt).foldl (· + ·) 0))
  | 1 => toFp32 ((treeReduce (fadd ieee) (some Num.zero) (xs.map (readElem fmt))).getD Num.zero)
  | _ => ofSigned 16 (satSigned 16 ((xs.map fun v => toSigned 16 v).foldl (· + ·) 0))
      + 65536 * ofSigned 16 (satSigned 16 ((xs.map fun v => toSigned 16 (v / 65536)).foldl (· + ·) 0))

/-! ### The accumulator store -/

def rowDefault (_ : Nat) : List (Nat × Bool) := []
def sumDefault (_ : Nat) : Nat × Bool := (0, false)

def MatrixArray.lane (a : MatrixArray) (row n : Nat) : Nat × Bool := (mapGet rowDefault row a.acc).getD n (0, false)

/-- A row whose lanes are all zero and unpoisoned is not listed. -/
def MatrixArray.setRow (a : MatrixArray) (row : Nat) (ls : List (Nat × Bool)) : MatrixArray :=
  { a with acc := mapSet rowDefault row (if ls.all (fun l => l == (0, false)) then [] else ls) a.acc }

/-- Accumulator rows of a stream command. -/
def PortCmd.accRow (p : PortCmd) (s : Nat) : Nat := (p.word.param 2 0 16 + s) % 512

def PortCmd.isClear (p : PortCmd) : Bool := p.word.opcode == 0x23
def PortCmd.transposed (p : PortCmd) : Bool := p.word.opcode == 0x22
def PortCmd.drains (p : PortCmd) : Bool := p.word.param 0 3 1 == 1
def PortCmd.epiValid (p : PortCmd) : Bool := p.word.param 4 31 1 == 1

/-- Rows a streamer command writes. -/
def PortCmd.rowsOf (p : PortCmd) : List Nat :=
  if p.isClear then (List.range (min 512 (p.word.param 2 0 16))).map fun i => (p.word.param 0 0 16 + i) % 512
  else (List.range p.word.steps).map p.accRow

/-! ### Loading (R231, R232) -/

/-- The shadow block an ARR.LOAD forms: its last N columns; columns never injected hold free values. [DEDUCED: log 104] -/
def loadLatch (y : Sys) (core : Nat) (p : PortCmd) (ieee : Bool) : Latch × Sys :=
  let w := p.word
  let fmt := w.opFmt 1
  let kk := w.param 0 0 8
  let n := w.param 1 0 8
  let steps := w.steps
  let have_ := min n steps
  let read := (List.range have_).map fun j => (List.range kk).map fun k => y.elem core fmt (p.addr 1 (steps - have_ + j)) k
  let free := (List.range (n - have_)).map fun j =>
    (List.range kk).map fun k => ((Config.freeBits 32 (y.seed + 32 * j + k)).toNat % 2 ^ fmtBits fmt, false)
  let cols := free ++ read
  let kind := accKind fmt
  let codes := cols.map fun c => c.map Prod.fst
  let latch : Latch :=
    { state := 2, fmt := fmt, k := kk, n := n, cols := cols,
      colSums := if w.param 2 0 1 = 1 then codes.map (sum32 kind ieee fmt) else [],
      rowSums := if w.param 2 0 1 = 1 then
        (List.range kk).map fun k => sum32 kind ieee fmt (codes.map fun c => c.getD k 0) else [] }
  let y1 := (List.range (n - have_)).foldl (fun z _ => { z with seed := z.seed + 32 }) y
  let y2 := (List.range have_).foldl (fun z j => z.noteWeightRead (spadByte core (p.addr 1 j)) (kk * elemBytes fmt)) y1
  (latch, y2)

/-! ### Streaming (R226, R238 to R245) -/

/-- Lane n of one step: its product sum and poison. -/
def stepLane (l : Latch) (transposed : Bool) (kind : Nat) (ieee : Bool) (xFmt : Nat) (x : List (Nat × Bool)) (n : Nat) : Lane × Bool :=
  let w : List (Nat × Bool) := if transposed then l.cols.map fun c => c.getD n (0, false) else l.cols.getD n []
  (dotLane kind ieee l.fmt xFmt (w.map Prod.fst) (x.map Prod.fst), (x.any fun e => e.2) || (w.any fun e => e.2))

/-- One step of a stream command. [DESIGN CHOICE: log 106] -/
def streamStep (core : Nat) (p : PortCmd) (s : State) (n : Nat) : State :=
  let w := p.word
  let k := s.core core
  let a := k.array
  let l := a.active
  let kind := accKind l.fmt
  let ieee := s.ieee32
  let add := w.param 0 0 1 == 1
  let len := if p.transposed then l.k else l.n
  let xlen := if p.transposed then l.n else l.k
  let fmt := w.opFmt 1
  let x := (List.range xlen).map fun i => s.sys.elem core fmt (p.addr 1 n) i
  let row := p.accRow n
  let lanes := (List.range 32).map fun i =>
    let old := a.lane row i
    if len ≤ i then ((if add then old else (0, false)), false)
    else
      let r := stepLane l p.transposed kind ieee fmt x i
      if add then
        let t := laneAdd kind ieee (laneOf kind old.1) r.1
        ((laneBits kind t.1, old.2 || r.2), t.2)
      else ((laneBits kind r.1, r.2), false)
  let a1 := a.setRow row (lanes.map Prod.fst)
  let xp := x.any fun e => e.2
  let free := s.sys.draw 32
  let old := mapGet sumDefault row a.rowSum
  let own := sum32 kind ieee fmt (x.map Prod.fst)
  let total : Nat :=
    if kind = 2 then free.1.toNat
    else if !add then own
    else if kind = 0 then ofSigned 32 (satSigned 32 (toSigned 32 old.1 + toSigned 32 own))
    else toFp32 (fadd ieee (ofFp32 old.1) (ofFp32 own))
  let rowSum := if w.param 0 2 1 = 1 then mapSet sumDefault row (total, xp || (add && old.2)) a1.rowSum else a1.rowSum
  let s1 := s.onSys fun y =>
    let y1 := if w.param 0 2 1 = 1 && kind == 2 then free.2 else y
    if lanes.any Prod.snd then y1.countLocal Cls.ACC_SAT 1 else y1
  s1.setCore core { k with array := { a1 with rowSum := rowSum } }

/-- One row of an ARR.CLEAR (R243). -/
def clearRow (r : Nat) (a : MatrixArray) : MatrixArray :=
  { a.setRow r [] with rowSum := mapSet sumDefault r (0, false) a.rowSum }

/-! ### Drain (R246 to R251) -/

/-- The epilogue of a command. -/
def PortCmd.epilogue (p : PortCmd) (y : Sys) (core : Nat) : Chain :=
  parseChain (bytesToNat (y.spadRead core (p.word.param 4 0 19) 48))

def laneFmt (kind : Nat) : Nat := match kind with | 0 => 4 | 1 => 9 | _ => 10

def epiFmts (p : PortCmd) (kind : Nat) : List Nat :=
  [p.word.opFmt 0, laneFmt kind] ++ (if p.word.opValid 2 then [p.word.opFmt 2] else [])

/-- Checks when a stream command starts (R229, R248, R249). -/
def startOk (y : Sys) (core : Nat) (p : PortCmd) (l : Latch) : Bool :=
  let kind := accKind l.fmt
  pairOk l.fmt (p.word.opFmt 1) && (!p.drains ||
    (if p.epiValid then chainLegal (p.epilogue y core) true (epiFmts p kind) (epiFmts p kind).tail (p.word.opValid 2)
     else drainOk kind (p.word.opFmt 0)))

def sum32Val (kind v : Nat) : Val :=
  match kind with
  | 0 => { re := .int (toSigned 32 v) }
  | 1 => { re := .flt (ofFp32 v) }
  | _ => { re := .flt (.ofInt (toSigned 16 v)), im := .flt (.ofInt (toSigned 16 (v / 65536))) }

/-- A drained lane as source 0x0 (R249). -/
def laneVal (kind : Nat) (e : Nat × Bool) : Val :=
  let l := laneOf kind e.1
  match kind with
  | 0 => { re := .int (satSigned 32 l.i), poison := e.2 }
  | 1 => { re := .flt l.f, poison := e.2 }
  | _ => { re := .int (satSigned 32 l.i), im := .int (satSigned 32 l.j), poison := e.2 }

/-- Sources of lane `i` of drained row `n`. -/
def epiSources (y : Sys) (core : Nat) (d : Drain) (a : MatrixArray) (cls : ChainClass) (c : Chain) (n i : Nat) : Nat → Val
  | 0 => laneVal d.kind (a.lane (d.cmd.accRow n) i)
  | 1 => inputVal (d.cmd.word.opFmt 2) (y.elem core (d.cmd.word.opFmt 2) (d.cmd.addr 2 n) i)
  | 2 => immVal cls c.imm0
  | 3 => immVal cls c.imm1
  | 4 => sum32Val d.kind (d.sums.getD i 0)
  | 5 =>
    let e := mapGet sumDefault (d.cmd.accRow n) a.rowSum
    { sum32Val d.kind e.1 with poison := e.2 }
  | 6 => { re := .int i }
  | _ => {}

/-- Did narrowing a value to a format saturate it? -/
def saturates (fmt : Nat) (v : Val) : Bool :=
  if fmt = 10 then narrowClass 3 v.re.num == 1 || narrowClass 3 v.im.num == 1 else narrowClass fmt v.re.num == 1

/-- A lane as it is narrowed without an epilogue (Table 07-4): its value before narrowing, which R306 takes the magnitude of, and
whether its saturation to INT32 changes it. [DEDUCED: log 108] -/
def plainLane (kind : Nat) (e : Nat × Bool) : Val × Bool :=
  let l := laneOf kind e.1
  match kind with
  | 0 => ({ re := .int l.i, poison := e.2 }, decide (satSigned 32 l.i ≠ l.i))
  | 1 => ({ re := .flt l.f, poison := e.2 }, false)
  | _ =>
    let part (v : Int) : Scalar := .flt (.fin (decide (v < 0)) v.natAbs (-15))
    ({ re := part l.i, im := part l.j, poison := e.2 }, false)

/-- Drain one row: outputs written, saturations counted; the tapped values. [DEDUCED: log 108] -/
def drainRow (core : Nat) (d : Drain) (s : State) (n : Nat) : State × List Val :=
  let w := d.cmd.word
  let a := (s.core core).array
  let fmt := w.opFmt 0
  if d.cmd.epiValid then
    let c := d.cmd.epilogue s.sys core
    let cls := chainClass c (epiFmts d.cmd d.kind)
    let r := chainOver cls s.ieeeOpt c ((List.range d.len).map fun i => epiSources s.sys core d a cls c n i)
    let s1 := (writeOutputs core w.tag fmt (d.cmd.addr 0 n) r.1 s).onSys fun y =>
      y.countLocal Cls.DRAIN_SAT (r.1.filter (saturates fmt)).length
    (if c.redAxis = 0 then writeReduction core cls c n r.2 s1 else s1, r.2)
  else
    let vs := (List.range d.len).map fun i => plainLane d.kind (a.lane (d.cmd.accRow n) i)
    let s1 := (writeOutputs core w.tag fmt (d.cmd.addr 0 n) (vs.map Prod.fst) s).onSys fun y =>
      y.countLocal Cls.DRAIN_SAT (vs.filter fun v => v.2 || saturates fmt v.1).length
    (s1, [])

/-- Drain a command: its rows in step order, then a reduction over rows (R250, R278). -/
def drainAll (core : Nat) (d : Drain) (s : State) : State :=
  let r := (List.range d.cmd.word.steps).foldl (fun (a : State × List (List Val)) n =>
    let x := drainRow core d a.1 n
    (x.1, a.2 ++ [x.2])) (s, [])
  let c := d.cmd.epilogue s.sys core
  if d.cmd.epiValid && c.reduce && c.redAxis == 1 then
    let cls := chainClass c (epiFmts d.cmd d.kind)
    let vs := (List.range d.len).map fun i => reduceRows cls s.ieeeOpt c.redOp (r.2.map fun row => row.getD i {})
    r.1.onSys fun y => y.writeElems core c.redFmt c.redAddr (vs.map fun v => (outputCode s.ieeeOpt c.redFmt v, v.poison))
  else r.1

/-! ### The array as it settles -/

/-- May the loader's command start (R233)? -/
def loaderStep (core : Nat) (s : State) : State :=
  let k := s.core core
  match k.array.loader with
  | [] => s
  | p :: rest =>
    if k.array.shadow.state ≠ 0 then s
    else
      let r := loadLatch s.sys core p s.ieee32
      ({ s with sys := r.2 }).setCore core { (k.complete p.word) with array := { k.array with shadow := r.1, loader := rest } }

/-- A swap token that finds no block coming releases the active one (R236). -/
def tokenStep (core : Nat) (s : State) : State :=
  s.onCore core fun k =>
    if k.array.token && k.array.shadow.state == 0 && k.array.loader.isEmpty then
      { k with array := { k.array with active := {}, token := false } }
    else k

/-- Do two runs of scratchpad bytes meet, modulo 512 KiB? -/
def spansMeet (a n b m : Nat) : Bool :=
  decide ((b + 524288 - a % 524288) % 524288 < n) || decide ((a + 524288 - b % 524288) % 524288 < m)

/-- Bytes of `n` consecutive elements. -/
def runBytes (fmt n : Nat) : Nat := (n * fmtBits fmt + 7) / 8

/-- The runs of scratchpad bytes a command in the drain unit has still to write: its rows at Op0 and its reduction results. -/
def Drain.writes (d : Drain) (y : Sys) (core : Nat) : List (Nat × Nat) :=
  let p := d.cmd
  let rows := (List.range p.word.steps).map fun n => (p.addr 0 n, runBytes (p.word.opFmt 0) d.len)
  let c := p.epilogue y core
  if p.epiValid && c.reduce then rows ++ [(c.redAddr, runBytes c.redFmt (if c.redAxis = 0 then p.word.steps else d.len))] else rows

/-- Must a step of the streamer wait (Table 07-6)? Its row still waits in the drain unit (R252), or it reads bytes that the drain has
still to write (R199). -/
def stepHeld (y : Sys) (core : Nat) (a : MatrixArray) (p : PortCmd) (n : Nat) : Bool :=
  let row := p.rowsOf.getD n 0
  let xlen := if p.transposed then a.active.n else a.active.k
  a.drains.any fun d => d.cmd.rowsOf.contains row ||
    (!p.isClear && (d.writes y core).any fun w => spansMeet w.1 w.2 (p.addr 1 n) (runBytes (p.word.opFmt 1) xlen))

/-- The steps of the streamer's command that can run now, from the one it has come to. -/
def runSteps (core : Nat) (p : PortCmd) : Nat → State → State
  | 0, s => s
  | fuel + 1, s =>
    let a := (s.core core).array
    if p.rowsOf.length ≤ a.step || stepHeld s.sys core a p a.step then s
    else
      let s1 := if p.isClear then s.onCore core fun k => { k with array := clearRow (p.rowsOf.getD a.step 0) k.array }
        else streamStep core p s a.step
      runSteps core p fuel (s1.onCore core fun k => { k with array := { k.array with step := a.step + 1 } })

/-- The streamer's command leaves it once its steps have run; one with DRAIN set waits in the streamer, the array frozen, until the
drain unit takes it (R246, R252). -/
def streamerLeave (core : Nat) (p : PortCmd) (s : State) : State :=
  s.onCore core fun k =>
    let a := k.array
    if a.step < p.rowsOf.length || (p.drains && !p.isClear && decide (2 ≤ a.drains.length)) then k
    else
      let l := a.active
      let d : Drain :=
        { cmd := p, len := if p.transposed then l.k else l.n, kind := accKind l.fmt, sums := if p.transposed then l.rowSums else l.colSums }
      let out : MatrixArray := { a with streamer := a.streamer.drop 1, step := 0 }
      if p.isClear then { (k.complete p.word) with array := out }
      else
        let k1 := { k with array := { out with
          token := p.word.param 0 1 1 == 1, drains := if p.drains then a.drains ++ [d] else a.drains } }
        if p.drains then k1 else k1.complete p.word

/-- Run the streamer's command as far as the array can run it. -/
def streamerStep (core : Nat) (s : State) : State :=
  let k := s.core core
  let a := k.array
  match a.streamer with
  | [] => s
  | p :: rest =>
    if a.token then s
    else if !p.isClear && a.active.state != 2 then s
    else if !p.isClear && a.step == 0 && !startOk s.sys core p a.active then
      (s.setCore core { k with array := { a with streamer := rest } }).cmdFault Cls.ILLEGAL_CMD UnitCode.array core p.word.tag 0
    else streamerLeave core p (runSteps core p p.rowsOf.length s)

/-- Everything the array can do at once: two commands wait at most at each port. -/
def settleArray (core : Nat) (s : State) : State :=
  (List.range 6).foldl (fun a _ => tokenStep core (streamerStep core (tokenStep core (loaderStep core a)))) s

/-! ### Commands -/

def loadLegal (wide31 : Bool) (w : Cmd) : Bool :=
  commonOk w false 0 1 0 && arrayFmt (w.opFmt 1) && decide (1 ≤ w.param 0 0 8 ∧ w.param 0 0 8 ≤ 32)
    && decide (1 ≤ w.param 1 0 8 ∧ w.param 1 0 8 ≤ (if wide31 then 31 else 32))

/-- ARR.LOAD (R231 to R233). -/
def arrLoad (i : Issue) (s : State) : State :=
  let c := i.core.toNat
  s.issueCmd i 0x20 UnitCode.array (loadLegal (s.width31 c)) (fun k _ => decide (k.array.loader.length < 2)) fun p t =>
    settleArray c ((vecRun c t).onCore c fun k => { k with array := { k.array with loader := k.array.loader ++ [p] } })

/-- See the log. [DEDUCED: log 107] -/
def streamLegal (w : Cmd) : Bool :=
  let drain := w.param 0 3 1 == 1
  commonOk w false (if drain then 1 else 2) 1 2 && arrayFmt (w.opFmt 1) && decide (w.param 2 0 16 ≤ 511) && decide (w.steps ≤ 512)

/-- Loss of the array by a parity error (R257). -/
def arrayParity (core tag : Nat) (s : State) : State :=
  (s.onSys fun y => y.fault Cls.ARRAY_PARITY UnitCode.array core tag 0).fenceCoreNow core

/-- ARR.STREAM and ARR.STREAM_T (R226, R238, R245). -/
def arrStream (op : Nat) (i : Issue) (s : State) : State :=
  let c := i.core.toNat
  s.issueCmd i op UnitCode.array streamLegal (fun k _ => decide (k.array.streamer.length < 2)) fun p t =>
    if i.parity then arrayParity c p.word.tag t
    else settleArray c ((vecRun c t).onCore c fun k => { k with array := { k.array with streamer := k.array.streamer ++ [p] } })

/-- ARR.CLEAR: rows modulo 512 (R243). -/
def arrClear (i : Issue) (s : State) : State :=
  let c := i.core.toNat
  s.issueCmd i 0x23 UnitCode.array (fun w => commonOk w true 0 0 0)
    (fun k _ => decide (k.array.streamer.length < 2)) fun p t =>
    settleArray c ((vecRun c t).onCore c fun k => { k with array := { k.array with streamer := k.array.streamer ++ [p] } })

/-- Is the array waiting for a swap (R234)? -/
def MatrixArray.waitsSwap (a : MatrixArray) : Bool :=
  a.token || (match a.streamer with | p :: _ => !p.isClear && a.active.state != 2 | [] => false)

/-- A swap (R234): the shadow block becomes active once FULL. `parity` tells that the stream command that then goes on meets a parity
error (R257). -/
def arraySwap (c : Nat) (parity : Bool) (s : State) : State :=
  let a := (s.core c).array
  if s.coreLive c && a.waitsSwap && a.shadow.state == 2 then
    match (if parity then a.streamer.find? fun p => !p.isClear else none) with
    | some p => arrayParity c p.word.tag s
    | none => settleArray c (s.onCore c fun k =>
        { k with array := { k.array with active := k.array.shadow, shadow := {}, token := false } })
  else s

/-- ARR_STARVE (R237); `parity` tells that the same command also met a parity error, whose record comes first (R258). -/
def arrStarve (c : Nat) (parity : Bool) (s : State) : State :=
  let a := (s.core c).array
  match a.streamer with
  | p :: _ =>
    if s.coreLive c && !p.isClear && a.waitsSwap && a.shadow.state != 2 && a.loader.isEmpty then
      let s1 := if parity then arrayParity c p.word.tag s else s
      s1.onSys fun y => y.fault Cls.ARR_STARVE UnitCode.array c p.word.tag 0
    else s
  | [] => s

/-- The drain unit drains its first command (R246). `parity` tells that it reads a lane or a stationary sum with a parity error
(R257). -/
def drainStart (c : Nat) (parity : Bool) (s : State) : State :=
  match (s.core c).array.drains with
  | [] => s
  | d :: _ =>
    if !s.coreLive c then s
    else if parity then arrayParity c d.cmd.word.tag s
    else
      settleArray c ((drainAll c d s).onCore c fun k =>
        { (k.complete d.cmd.word) with array := { k.array with drains := k.array.drains.drop 1 } })

end Sys2Proof.Machine
end

