-- ==== Sys2Proof/Machine/Nets.lean ====
section
/-! DEFINITION. The receiver networks (R124, R125, R297 to R301): weight tensors as real values, layers with their rounding, the
stages of Table 04-6 and the head bank (R137). -/

namespace Sys2Proof.Machine

/-! ### Exact dyadic numbers -/

/-- m × 2^e. -/
structure Dyad where
  m : Int := 0
  e : Int := 0
  deriving DecidableEq, Repr

def Dyad.add (a b : Dyad) : Dyad :=
  let e := min a.e b.e
  { m := a.m * pow2Num (a.e - e) + b.m * pow2Num (b.e - e), e := e }

def Dyad.mul (a b : Dyad) : Dyad := { m := a.m * b.m, e := a.e + b.e }
def Dyad.neg (a : Dyad) : Dyad := { a with m := -a.m }
def Dyad.ofInt (v : Int) : Dyad := { m := v }

/-- A finite number; one that is not finite counts as 0. -/
def Num.dyad : Num → Dyad
  | .fin neg m e => { m := if neg then -(m : Int) else m, e := e }
  | _ => {}

def Dyad.num (a : Dyad) : Num := .fin (decide (a.m < 0)) a.m.natAbs a.e
def Dyad.frac (a : Dyad) : Int × Nat := (a.m * pow2Num a.e, pow2Den a.e)

def sumDyads (l : List Dyad) : Dyad := l.foldl Dyad.add {}

/-- a/b to the nearest integer, ties away from zero (R292). -/
def Dyad.ratio (a b : Dyad) : Int :=
  let p := a.frac
  let q := b.frac
  let m : Int := if q.1 = 0 then 0 else (roundMagInt (p.1.natAbs * q.2) (p.2 * q.1.natAbs) : Nat)
  if decide (p.1 < 0) != decide (q.1 < 0) then -m else m

/-! ### Weight tensors (R297, R298, R301) -/

/-- A weight tensor as its descriptor gives it: offsets of its parts, and of what follows it. -/
structure Tensor where
  rows : Nat
  cols : Nat
  int4 : Bool
  gran : Nat
  scaleAt : Nat
  codeAt : Nat
  sideAt : Nat
  sides : Nat
  next : Nat
  deriving DecidableEq, Repr

def pad32 (n : Nat) : Nat := (n + 31) / 32 * 32

/-- The tensor at an offset of what `rd` reads (offset, bytes). -/
def tensorAt (rd : Nat → Nat → Nat) (o : Nat) : Tensor :=
  let codeAt := o + 32 + pad32 (4 * rd (o + 8) 4)
  let sideAt := codeAt + pad32 (rd (o + 0x10) 4)
  { rows := rd o 2, cols := rd (o + 2) 2, int4 := rd (o + 4) 1 == 0, gran := rd (o + 5) 1, scaleAt := o + 32, codeAt := codeAt,
    sideAt := sideAt, sides := rd (o + 0x0C) 4, next := sideAt + pad32 (8 * rd (o + 0x0C) 4) }

/-- The `i`-th of tensors that follow one another from an offset. -/
def tensorNo (rd : Nat → Nat → Nat) (o : Nat) : Nat → Tensor
  | 0 => tensorAt rd o
  | i + 1 => tensorNo rd (tensorAt rd o).next i

/-- Real value of element (k, n): its code times its scale, or for an escape the value of its side-list entry (R297, R302). -/
def Tensor.weight (t : Tensor) (rd : Nat → Nat → Nat) (k n : Nat) : Dyad :=
  let i := n * t.rows + k
  let code := if t.int4 then toSigned 4 (bitsOf (rd (t.codeAt + i / 2) 1) (4 * (i % 2)) 4) else toSigned 8 (rd (t.codeAt + i) 1)
  let escape := code == (if t.int4 then -8 else -128)
  let scale := match t.gran with
    | 0 => 0
    | 1 => n
    | _ => n * ((t.rows + 31) / 32) + k / 32
  if escape then
    match (List.range t.sides).find? fun j => rd (t.sideAt + 8 * j) 4 == i with
    | some j => (fp16.decode (rd (t.sideAt + 8 * j + 4) 2)).dyad
    | none => {}
  else (Dyad.ofInt code).mul (ofFp32 (rd (t.scaleAt + 4 * scale) 4)).dyad

/-! ### Layers (R124, R125) -/

/-- Codes of an activation tensor as real values. -/
def actValues (scale : Dyad) (codes : List Int) : List Dyad := codes.map fun c => (Dyad.ofInt c).mul scale

/-- Sum over the inputs of one output channel. -/
def Tensor.output (t : Tensor) (rd : Nat → Nat → Nat) (xs : List Dyad) (n : Nat) : Dyad :=
  sumDyads ((List.range t.rows).map fun k => (xs.getD k {}).mul (t.weight rd k n))

/-- One layer: exact sums, ReLU where the stage has it, INT8 codes of the output's scale, rounded once and saturated to ±127. [DEDUCED: log 228] -/
def Tensor.layer (t : Tensor) (rd : Nat → Nat → Nat) (relu : Bool) (out : Dyad) (xs : List Dyad) : List Int :=
  (List.range t.cols).map fun n =>
    let v := (t.output rd xs n).ratio out
    if relu && decide (v < 0) then 0 else limitTo v 127

/-- Activation scale of a stage of an air class (R125, R310). [UNVERIFIED: log 229] -/
def State.actScale (s : State) (airClass stage : Nat) : Dyad :=
  (ofFp32 (mapGet (fun _ => (0 : BitVec 32)) (Config.actTensor airClass stage) s.comp.scales).toNat).dyad

/-- Tensor `i` of a network section of an air class. -/
def State.netTensor (s : State) (type airClass i : Nat) : Tensor :=
  match s.section' type airClass with
  | some e => tensorNo s.imgNat e.1 i
  | none => tensorAt (fun _ _ => 0) 0

/-- A stage whose weights lie in the image: section type, tensor, activation, output stage. -/
def State.stage (s : State) (airClass type i : Nat) (relu : Bool) (out : Nat) (xs : List Dyad) : List Int :=
  (s.netTensor type airClass i).layer s.imgNat relu (s.actScale airClass out) xs

/-- EST: 64 sample codes and 32 prior features to 32 estimate features. -/
def State.estimate (s : State) (a : Nat) (window priors : List Int) : List Int :=
  let l1 := s.stage a 2 0 true 2 (actValues (s.actScale a 0) window ++ actValues (s.actScale a 1) priors)
  let l2 := s.stage a 2 1 true 3 (actValues (s.actScale a 2) l1)
  s.stage a 2 2 false 4 (actValues (s.actScale a 3) l2)

/-- Stem and mix of one stream: window codes of a scale, estimate features, to 128. -/
def State.stemMix (s : State) (a : Nat) (windowScale : Dyad) (window features : List Int) : List Int :=
  let st := s.stage a 3 0 true 5 (actValues windowScale window)
  s.stage a 3 1 true 6 (actValues (s.actScale a 5) st ++ actValues (s.actScale a 4) features)

/-- Power that the EST gain of a stream implies: features 0 and 1 are I and Q. -/
def gainPower (features : List Int) : Nat := (features.getD 0 0).natAbs ^ 2 + (features.getD 1 0).natAbs ^ 2

/-- Shares of the streams: of the power implied by the EST gains, summing to 1 (R124), as numerators of their sum. [DESIGN CHOICE: log 244] -/
def streamShares (a : Nat) (features : List (List Int)) : List Nat :=
  let ps := features.map gainPower
  if ps.all (· == 0) then (List.range ps.length).map fun i => Config.shareWithoutGain a ps.length i + 1 else ps

/-- Combine: Σ w_i f_i over the antenna group. -/
def State.combineStreams (s : State) (a : Nat) (features mixed : List (List Int)) : List Int :=
  let shares := streamShares a features
  let total : Int := (shares.foldl (· + ·) 0 : Nat)
  let inn := s.actScale a 6
  let out := (s.actScale a 7).mul (Dyad.ofInt total)
  (List.range 128).map fun j =>
    let sum := (shares.zip mixed).foldl (fun v e => v + (e.1 : Int) * e.2.getD j 0) 0
    limitTo (((Dyad.ofInt sum).mul inn).ratio out) 127

/-- Trunk: T1 to T3; its outputs are the features that sample records keep (R139). -/
def State.trunk (s : State) (a : Nat) (x : List Int) : List Int :=
  let t1 := s.stage a 3 2 true 8 (actValues (s.actScale a 7) x)
  let t2 := s.stage a 3 3 true 9 (actValues (s.actScale a 8) t1)
  s.stage a 3 4 true 10 (actValues (s.actScale a 9) t2)

/-- Separation network of one stream: window codes and three bursts' estimate features to three windows of 64 codes. -/
def State.separate (s : State) (a : Nat) (window features : List Int) : List Int :=
  let l1 := s.stage a 5 0 true 12 (actValues (s.actScale a 0) window ++ actValues (s.actScale a 4) features)
  let l2 := s.stage a 5 1 true 13 (actValues (s.actScale a 12) l1)
  s.stage a 5 2 false 14 (actValues (s.actScale a 13) l2)

/-! ### The head bank (R137, Table 04-12) -/

/-- Which head of a group: its place in the bank. -/
inductive HeadPlace where
  | shipped | active | previous | candidate
  deriving DecidableEq, Repr

def HeadPlace.index : HeadPlace → Nat
  | .shipped => 0
  | .active => 1
  | .previous => 2
  | .candidate => 3

/-- Bytes of a place: a head with every scale and side entry that R298 allows fits. [DESIGN CHOICE: log 21] -/
def headRoom : Nat := 32768

/-- Address of a head of a group (air class × 256 + group) in the primary, from 0x1_3200_0000 on. [DESIGN CHOICE: log 21] -/
def headAddr (key : Nat) (p : HeadPlace) : Nat := 0x132000000 + ((key / 256 * 16 + key % 256) * 4 + p.index) * headRoom

/-- Offsets of the copies: primary in quarter 0, mirror in quarter 1 unless that quarter is lost. [DESIGN CHOICE: log 21] -/
def Sys.bankCopies (y : Sys) : List Nat :=
  [0, 2 ^ 33].filter fun o => !y.quarterGone (o / 2 ^ 33) && !y.fences.everLost.getLsbD (o / 2 ^ 33)

/-- Write the 32-byte words of a head, each with its poison, in both copies of the bank. -/
def Sys.writeWords (y : Sys) (key : Nat) (p : HeadPlace) (ws : List (BitVec 256 × Bool)) : Sys :=
  y.bankCopies.foldl (fun a o => (List.range ws.length).foldl (fun z i =>
    let w := ws.getD i (0, false)
    z.store (headAddr key p + o + 32 * i) (natToBytes 32 w.1.toNat) w.2) a) y

def Sys.writeHead (y : Sys) (key : Nat) (p : HeadPlace) (bs : List Byte) : Sys :=
  y.bankCopies.foldl (fun a o => a.store (headAddr key p + o) bs false) y

/-- Bytes of a head, a word that reads as poisoned taken from the mirror (Table 04-13); the second part says whether one has no clean copy. -/
def Sys.readHead (y : Sys) (key : Nat) (p : HeadPlace) (off n : Nat) : Nat × Bool :=
  let at_ := headAddr key p + off
  match y.bankCopies.find? fun o => !y.poisoned (at_ + o) n with
  | some o => (y.peekNat (at_ + o) n, false)
  | none => (y.peekNat at_ n, true)

def Sys.headNat (y : Sys) (key : Nat) (p : HeadPlace) (off n : Nat) : Nat := (y.readHead key p off n).1

/-- Does a word of a head read as poisoned in every copy? -/
def Sys.headPoisoned (y : Sys) (key : Nat) (p : HeadPlace) : Bool :=
  let len := (tensorNo (y.headNat key p) 0 1).next
  (List.range ((min len headRoom + 31) / 32)).any fun i => (y.readHead key p (32 * i) 32).2

/-- The words of a head as the bank gives them. -/
def Sys.headWords (y : Sys) (key : Nat) (p : HeadPlace) : List (BitVec 256 × Bool) :=
  let len := (tensorNo (y.headNat key p) 0 1).next
  (List.range ((min len headRoom + 31) / 32)).map fun i =>
    let w := y.readHead key p (32 * i) 32
    (BitVec.ofNat 256 w.1, w.2)

def noWords (_ : Nat) : List (BitVec 256 × Bool) := []

/-- The active head of a group in use is cached in Peat: its words as they are in the bank (R137). [DESIGN CHOICE: log 272] -/
def Sys.cacheHead (y : Sys) (key : Nat) : Sys := { y with headCache := mapSet noWords key (y.headWords key .active) y.headCache }

/-- Copy a head to another place of its group; a new active head is cached afresh where one is cached. [DESIGN CHOICE: log 272] -/
def Sys.copyHead (y : Sys) (key : Nat) (from_ to_ : HeadPlace) : Sys :=
  let z := y.writeWords key to_ (y.headWords key from_)
  if to_ == .active && !(mapGet noWords key y.headCache).isEmpty then z.cacheHead key else z

/-- Bytes of the cached active head of a group. -/
def Sys.cachedNat (y : Sys) (key off n : Nat) : Nat :=
  let ws := mapGet noWords key y.headCache
  bytesToNat ((List.range n).map fun i => BitVec.ofNat 8 (((ws.getD ((off + i) / 32) (0, false)).1.toNat) / 2 ^ (8 * ((off + i) % 32))))

def Sys.cachePoisoned (y : Sys) (key : Nat) : Bool := (mapGet noWords key y.headCache).any Prod.snd

/-- H1 and H2 of a head, whose bytes `rd` gives, over T3 codes: LLRs of a symbol in units of 0.25 nat, rounded and saturated to ±127
(R95, R124). -/
def State.headOver (s : State) (rd : Nat → Nat → Nat) (a : Nat) (t3 : List Int) : List Int :=
  let h1 := (tensorNo rd 0 0).layer rd true (s.actScale a 11) (actValues (s.actScale a 10) t3)
  (tensorNo rd 0 1).layer rd false { m := 1, e := -2 } (actValues (s.actScale a 11) h1)

/-- A head of the bank. -/
def State.headOutput (s : State) (key : Nat) (p : HeadPlace) (t3 : List Int) : List Int :=
  s.headOver (s.sys.headNat key p) (key / 256) t3

/-- The cached active head, which demaps live traffic. [DESIGN CHOICE: log 272] -/
def State.activeOutput (s : State) (key : Nat) (t3 : List Int) : List Int := s.headOver (s.sys.cachedNat key) (key / 256) t3

end Sys2Proof.Machine
end

