-- ==== Sys2Proof/Machine/Train.lean ====
section
/-! DEFINITION. The arithmetic of training and validation (R142, R144): matrix products on the arrays, the training step, the deviation,
quantisation of a trained head, and the LLR quality metric. -/

namespace Sys2Proof.Machine

/-! ### Matrices -/

/-- A matrix of numbers, row by row. -/
structure Mat where
  rows : Nat := 0
  cols : Nat := 0
  at_ : Array Num := #[]

def Mat.get (m : Mat) (r c : Nat) : Num := m.at_.getD (r * m.cols + c) Num.zero

def Mat.make (rows cols : Nat) (f : Nat → Nat → Num) : Mat :=
  { rows := rows, cols := cols, at_ := ((List.range (rows * cols)).map fun i => f (i / cols) (i % cols)).toArray }

def Mat.transpose (m : Mat) : Mat := Mat.make m.cols m.rows fun r c => m.get c r

/-- FP32 words in row order. -/
def Mat.words (m : Mat) : List (BitVec 32) := m.at_.toList.map fun x => BitVec.ofNat 32 (toFp32 x)
def Mat.ofWords (rows cols : Nat) (l : List (BitVec 32)) : Mat := { rows := rows, cols := cols, at_ := (l.map fun v => ofFp32 v.toNat).toArray }

/-- A product on the arrays: BF16 operands, the adder tree over each 32 inputs, FP32 accumulation of the blocks in order (R142, R227). [DEDUCED: log 245] -/
def Mat.mul (opt : Nat) (a b : Mat) : Mat :=
  let ieee := ieeeFor opt 9
  let bf (x : Num) : Num := bf16.narrow (ieeeFor opt 8) x
  Mat.make a.rows b.cols fun r c =>
    (List.range ((a.cols + 31) / 32)).foldl (fun acc blk =>
      let ks := (List.range (min 32 (a.cols - 32 * blk))).map (32 * blk + ·)
      fadd ieee acc (adderTree ieee (ks.map fun k => fmul ieee (bf (a.get r k)) (bf (b.get k c))))) Num.zero

def Mat.map2 (f : Num → Num → Num) (a b : Mat) : Mat := Mat.make a.rows a.cols fun r c => f (a.get r c) (b.get r c)

def frelu (x : Num) : Num := if flt Num.zero x then x else Num.zero

/-! ### One training step (R142) -/

/-- A head in training: FP32 masters, momenta, and the shipped head's weights. -/
structure TrainState where
  w1 : Mat
  w2 : Mat
  v1 : Mat
  v2 : Mat
  s1 : Mat
  s2 : Mat

/-- 0.9 in FP32. -/
def momentum : Num := fp32.round false false 9 10

/-- 0.9 V + G/256 + ANCHOR (W − S), each operation rounded once, from left to right. [DEDUCED: log 245] -/
def moment (ieee : Bool) (anchor : Num) (v g w s : Mat) : Mat :=
  Mat.make v.rows v.cols fun r c =>
    fadd ieee (fadd ieee (fmul ieee momentum (v.get r c)) (fmul ieee (.fin false 1 (-8)) (g.get r c)))
      (fmul ieee anchor (fsub ieee (w.get r c) (s.get r c)))

def descend (ieee : Bool) (lr : Num) (w v : Mat) : Mat := Mat.map2 (fun x y => fsub ieee x (fmul ieee lr y)) w v

/-- One step over X (records by features) and the label bits B (records by m), overflow by IEEE_OVF. -/
def trainStep (opt : Nat) (lr anchor : Num) (x b : Mat) (t : TrainState) : TrainState :=
  let ieee := ieeeFor opt 9
  let a1 : Mat := { (Mat.mul opt x t.w1) with at_ := (Mat.mul opt x t.w1).at_.map frelu }
  let z := Mat.mul opt a1 t.w2
  let g := Mat.map2 (fun zz bb => fsub ieee (fsigmoid ieee zz) (fsub ieee fone bb)) z b
  let back := Mat.mul opt g t.w2.transpose
  let d1 := Mat.map2 (fun d a => if flt Num.zero a then d else Num.zero) back a1
  let v2 := moment ieee anchor t.v2 (Mat.mul opt a1.transpose g) t.w2 t.s2
  let v1 := moment ieee anchor t.v1 (Mat.mul opt x.transpose d1) t.w1 t.s1
  { t with v2 := v2, v1 := v1, w2 := descend ieee lr t.w2 v2, w1 := descend ieee lr t.w1 v1 }

/-! ### Deviation and quantisation -/

/-- Σ (W − S)² and Σ S², exactly. -/
def Mat.deviation (w s : Mat) : Dyad × Dyad :=
  (List.range w.at_.size).foldl (fun (a : Dyad × Dyad) i =>
    let x := (w.at_.getD i Num.zero).dyad
    let y := (s.at_.getD i Num.zero).dyad
    let d := x.add y.neg
    (a.1.add (d.mul d), a.2.add (y.mul y))) ({}, {})

/-- ‖W − S‖ / ‖S‖ over both layers exceeds the limit. -/
def TrainState.deviates (t : TrainState) (limit : Num) : Bool :=
  let a := t.w1.deviation t.s1
  let b := t.w2.deviation t.s2
  let num := (a.1.add b.1).frac
  let den := ((a.2.add b.2).mul (limit.dyad.mul limit.dyad)).frac
  decide (den.1 * num.2 < num.1 * den.2)

/-- A matrix quantised to INT8 per output channel as an image holds it (R142, R298, R304). -/
def Mat.quantised (m : Mat) : List Byte :=
  let scales := (List.range m.cols).map fun c => (groupScale 1 ((List.range m.rows).map fun r => m.get r c)).1
  let code (c r : Nat) : Byte :=
    match m.get r c with
    | .fin neg a e =>
      let x := (Num.fin neg a e).mag
      let sc := (scales.getD c fone).mag
      let v : Int := (roundMagInt (x.1 * sc.2) (x.2 * sc.1) : Nat)
      BitVec.ofNat 8 (writeElem 1 0 (.ofInt (if neg then -v else v)))
    | x => BitVec.ofNat 8 (writeElem 1 0 x)
  let scaleBytes := scales.flatMap fun sc => natToBytes 4 (toFp32 sc)
  let codes := (List.range m.cols).flatMap fun c => (List.range m.rows).map (code c)
  let padded (bs : List Byte) : List Byte := bs ++ List.replicate (pad32 bs.length - bs.length) 0
  padded (natToBytes 2 m.rows ++ natToBytes 2 m.cols ++ natToBytes 4 0x0101 ++ natToBytes 4 m.cols ++ natToBytes 4 0
    ++ natToBytes 4 (m.rows * m.cols)) ++ padded scaleBytes ++ padded codes

/-! ### Heads as matrices -/

/-- Real weights of a head's layer as FP32 values. -/
def Tensor.mat (t : Tensor) (rd : Nat → Nat → Nat) : Mat :=
  Mat.make t.rows t.cols fun k n =>
    let f := (t.weight rd k n).frac
    round32 false f.1 f.2 false

/-- H1 and H2 of a head of the bank. -/
def Sys.headMats (y : Sys) (key : Nat) (p : HeadPlace) : Mat × Mat :=
  let rd := y.headNat key p
  ((tensorNo rd 0 0).mat rd, (tensorNo rd 0 1).mat rd)

/-! ### The LLR quality metric (R144) -/

/-- log₂(1 + e^x) for x = q/4, in fixed point. -/
def softplus2 (q : Int) : Int :=
  let e := expFrac q 4
  let n := e.1 + e.2
  let k := binExp n e.2
  k * fixOne' + lnUnit (n * pow2Den k) (e.2 * pow2Num k) * fixOne' / ln2Fix
where fixOne' : Int := 2 ^ fixBits

/-- Σ log₂(1 + exp(−(1 − 2b) × 0.25 λ)) over coded bits and their LLRs. -/
def llrLoss (bits : List Bool) (llrs : List Int) : Int :=
  (bits.zip llrs).foldl (fun a e => a + softplus2 (if e.1 then e.2 else -e.2)) 0

end Sys2Proof.Machine
end

