-- ==== Sys2Proof/Machine/Adapt.lean ====
section
/-! DEFINITION. Field adaptation (R136 to R155): head groups, sample records, training, validation, promotion, rollback
and the host's head commands. -/

namespace Sys2Proof.Machine

/-! ### Parameters and groups -/

/-- A field of the ADAPT section (Table 04-17). -/
def State.adaptParam (s : State) (off n : Nat) : Nat :=
  match s.section' 11 0 with
  | some e => s.imgNat (e.1 + off) n
  | none => 0

def adaptKey (airClass group : Nat) : Nat := 256 * airClass + group

/-- Groups the ADAPT section lists (R138, R154). [DEDUCED: log 94] -/
def State.listedGroups (s : State) : List Nat :=
  (List.range (s.adaptParam 0x16 2)).map fun i =>
    adaptKey (s.adaptParam (0x40 + 2 * i) 1) (s.adaptParam (0x41 + 2 * i) 1)

def groupDefault (_ : Nat) : HeadGroup := {}
def State.headGroup (s : State) (k : Nat) : HeadGroup := mapGet groupDefault k s.adapt.groups
def State.setHeadGroup (s : State) (k : Nat) (g : HeadGroup) : State :=
  { s with adapt := { s.adapt with groups := mapSet groupDefault k g s.adapt.groups } }

/-- Does the group adapt: listed, not disabled, not suspended (R138)? -/
def State.adapting (s : State) (k : Nat) : Bool :=
  s.listedGroups.contains k && !(s.headGroup k).disabled && !(s.headGroup k).suspended

/-- An ADAPT parameter held as FP32, as a fraction. -/
def State.adaptFp (s : State) (off : Nat) : Int × Nat := (ofFp32 (s.adaptParam off 4)).frac

/-! ### Samples (R136, R139 to R141) -/

/-- Records in the pending area; a record takes 288 bytes of its 256 MiB. -/
def State.pendingRecords (s : State) : Nat := (s.adapt.open_.map fun e => e.2.length).foldl (· + ·) 0

/-- See the log. [DEDUCED: log 99] -/
def pendingCapacity : Nat := 932067

/-- A burst enters OPEN (R136, R139): its head group, and its mark 1 training, 2 held-back, 0 no records. -/
def markBurst (b : Burst) (payloadSymbols : Nat) (s : State) : State × Burst :=
  let sel := s.sys.headSel b.shortId.toNat
  let inRange := decide (sel < s.imgNat 0x24 1)
  let s1 := if inRange then s else s.onSys fun y => y.count Cls.HEAD_SEL_RANGE
  let g := if inRange then sel else 0
  if s.adapting (adaptKey b.airClass g) then
    if pendingCapacity ≤ s.pendingRecords then
      (s1.onSys fun y => y.count Cls.ADAPT_PENDING_FULL, { b with group := g })
    else
      let back := decide ((b.shortId.toNat + b.seq.toNat) % 8 = 0) && decide (payloadSymbols ≤ 2048)
      (s1, { b with group := g, sampling := if back then 2 else 1 })
  else (s1, { b with group := g })

def noRecords (_ : Nat) : List SampleRecord := []
def State.openRecords (s : State) (h : BitVec 32) : List SampleRecord := mapGet noRecords h.toNat s.adapt.open_
def State.setOpenRecords (s : State) (h : BitVec 32) (l : List SampleRecord) : State :=
  { s with adapt := { s.adapt with open_ := mapSet noRecords h.toNat l s.adapt.open_ } }

/-- RECV keeps the records of a burst at full grade and without collision (R139). -/
def keepRecords (b : Burst) (features : List (Nat × List Byte × Bool)) (s : State) : State :=
  if b.sampling = 0 then s
  else
    let stride := s.adaptParam 0 2
    let old := s.openRecords b.handle
    let take := features.filter fun f => b.sampling == 2 || decide (f.1 % stride = 0)
    let recs := take.map fun f =>
      ({ features := f.2.1, snr := b.snr, channel := b.channel, shortId := b.shortId, symbol := f.1, poison := f.2.2 } : SampleRecord)
    let limit := if b.sampling = 1 then s.adaptParam 2 2 else old.length + recs.length
    s.setOpenRecords b.handle ((old ++ recs).take limit)

/-- Order of commits (R141): closing slot, channel ID, short ID. -/
def commitBefore (slotA chA sidA slotB chB sidB : Nat) : Bool :=
  decide (slotA < slotB) || (slotA == slotB && (decide (chA < chB) || (chA == chB && decide (sidA ≤ sidB))))

/-- Insert records behind every one that precedes or equals them in commit order. -/
def insertRecords (new : List SampleRecord) : List SampleRecord → List SampleRecord
  | [] => new
  | r :: rest =>
    match new with
    | [] => r :: rest
    | n :: _ =>
      if commitBefore r.slot r.channel.toNat r.shortId.toNat n.slot n.channel.toNat n.shortId.toNat then
        r :: insertRecords new rest
      else new ++ r :: rest

def insertHeld (h : HeldBack) : List HeldBack → List HeldBack
  | [] => [h]
  | r :: rest =>
    if commitBefore r.slot r.channel.toNat r.shortId.toNat h.slot h.channel.toNat h.shortId.toNat then
      r :: insertHeld h rest
    else h :: r :: rest

/-- Keep the last `n` entries: both buffers drop their oldest first (R141). -/
def lastN {α : Type} (n : Nat) (l : List α) : List α := l.drop (l.length - n)

/-- Label bits of a payload data symbol: the coded bits it carries (R140). [DEDUCED: log 97] -/
def labelBits (coded : List Bool) (m symbol : Nat) : List Bool := (coded.drop (m * symbol)).take m

/-- Commit a training burst's records to its group's ring (R140, R141). -/
def commitTraining (c : Closing) (s : State) : State :=
  let b := c.burst
  let p := profileOf b.profile
  let k := adaptKey b.airClass b.group
  let good := c.records.filter fun r => !r.poison
  let coded := encodePayload p.rate p.z c.payload
  let recs := good.map fun r => { r with slot := b.closeSlot, labels := labelBits coded (if p.four then 2 else 1) r.symbol }
  let g := s.headGroup k
  let s1 := s.onSys fun y => y.countN Cls.ADAPT_POISON_SKIP (c.records.length - good.length)
  s1.setHeadGroup k { g with ring := lastN 16384 (insertRecords recs g.ring), since := g.since + recs.length }

/-- Commit a held-back burst with its payload and CRC (R140, R141). -/
def commitHeld (c : Closing) (s : State) : State :=
  let b := c.burst
  let k := adaptKey b.airClass b.group
  let good := c.records.filter fun r => !r.poison
  let g := s.headGroup k
  let h : HeldBack :=
    { slot := b.closeSlot, channel := b.channel, shortId := b.shortId, profile := b.profile, payload := c.bytes, records := good }
  let s1 := s.onSys fun y => y.countN Cls.ADAPT_POISON_SKIP (c.records.length - good.length)
  s1.setHeadGroup k { g with held := lastN 32 (insertHeld h g.held) }

/-- A burst closes: what its own reception gave waits, with its records, for the processing boundary, since a later switch of the slot
takes it out (R140, R150). [DEDUCED: log 246] -/
def recordCommit (b : Burst) (crcOk : Bool) (payload : List Bool) (bytes : List Byte) (s : State) : State :=
  let c : Closing :=
    { burst := b, crcOk := crcOk, valid := crcOk && !b.poisoned, payload := payload, bytes := bytes, records := s.openRecords b.handle,
      time := s.sys.now }
  ({ s with adapt := { s.adapt with closings := s.adapt.closings ++ [c] } }).setOpenRecords b.handle []

/-- A burst that combining made valid (R140). -/
def commitCombined (b : Burst) (valid : Bool) (bytes : List Byte) (s : State) : State :=
  if valid then
    { s with adapt := { s.adapt with closings := s.adapt.closings.map fun c =>
        if c.burst.handle == b.handle && !c.valid then { c with combined := true, bytes := bytes } else c } }
  else s

/-- RECORD_COMMIT of one closed burst (R140), and its part in the rates of R147: bursts of the full grade, by CRC-24 alone. -/
def commitClosing (s : State) (c : Closing) : State :=
  let b := c.burst
  let k := adaptKey b.airClass b.group
  let g := s.headGroup k
  let s0 := if s.listedGroups.contains k && !b.fallback then s.setHeadGroup k { g with
      closed := (g.closed.filter fun e => decide (s.sys.now ≤ e.1 + s.adaptParam 0x20 4 * 1000000000)) ++ [(c.time, c.crcOk)],
      watch := g.watch.map fun w => { w with ok := w.ok + c.crcOk.toNat, all := w.all + 1 } }
    else s
  if b.tainted || b.fallback then s0
  else if b.sampling = 1 && c.valid then commitTraining c s0
  else if b.sampling = 2 && (c.valid || c.combined) then commitHeld c s0
  else s0

/-- The bursts closed in the slot commit at its processing boundary; those of a slot that switched to the fallback grade add nothing
(R150). [DEDUCED: log 246] -/
def applyClosings (s : State) : State :=
  let s1 := if s.job.fallback then s else s.adapt.closings.foldl commitClosing s
  { s1 with adapt := { s1.adapt with closings := [] } }

/-! ### Training and validation (R142 to R145) -/

/-- HEAD_REJECT (Table 21-11): reasons 1 DEVIATION, 2 POISON, 3 CRC, 4 METRIC. -/
def rejectCandidate (k reason : Nat) (s : State) : State :=
  (s.setHeadGroup k { s.headGroup k with candidate := none }).onSys fun y =>
    y.event Cls.HEAD_REJECT [(2, 1, k / 256), (3, 1, k % 256), (4, 1, reason), (8, 6, s.job.slot % 2 ^ 48)]

/-- May a candidate start (R142)? -/
def State.mayTrain (s : State) (k : Nat) : Bool :=
  let g := s.headGroup k
  s.adapting k && g.candidate.isNone && g.watch.isNone && decide (s.adaptParam 4 2 ≤ g.since)

/-- Slack in which an ADAPT block may start: its reference time ends by the combining pass or the close of ingest, the
slot did not switch, and the job is not stepped (R79, R150, R384). -/
def State.slackFor (s : State) (ns : Nat) : Bool :=
  decide (ns ≤ 5000) && (s.job.state == .running || s.job.state == .stopping) && s.jobMode 1 1 == 0 &&
  (match s.job.phase with
   | .combine => !s.job.fallback && decide (s.sys.now + ns ≤ (if s.job.worked then s.slotEnd + s.sys.slotLen + s.job.fhMaxDelay * 1000
     else s.slotEnd + s.job.combineWait * 1000))
   | .ingest => !s.job.slackFallback && decide (s.sys.now + ns ≤ s.slotEnd + s.job.fhMaxDelay * 1000)
   | _ => false)

/-- LLRs of a symbol and a head's layers: m of the air class of a group. -/
def groupBits (k : Nat) : Nat := if (classProfile (k / 256)).four then 2 else 1

/-- A candidate starts from the active head, its momenta 0 (R142). -/
def startCandidate (k : Nat) (s : State) : State :=
  let w := s.sys.headMats k .active
  let zero (m : Mat) : List (BitVec 32) := List.replicate (m.rows * m.cols) 0
  s.setHeadGroup k { s.headGroup k with
    candidate := some { firstSlot := s.job.slot, w1 := w.1.words, w2 := w.2.words, v1 := zero w.1, v2 := zero w.2 }, since := 0 }

/-- The 256 records of a step: in ring order, oldest first, wrapping (R142). [DEDUCED: log 245] -/
def stepRecords (ring : List SampleRecord) (step : Nat) : List SampleRecord :=
  (List.range 256).map fun i => ring.getD ((256 * step + i) % ring.length) {}

/-- X: T3 features as real values. -/
def State.featureMat (s : State) (airClass : Nat) (rs : List SampleRecord) : Mat :=
  let sc := s.actScale airClass 10
  Mat.make rs.length 256 fun r c => ((Dyad.ofInt ((((rs.getD r {}).features).getD c 0).toInt)).mul sc).num

/-- B: label bits. -/
def labelMat (m : Nat) (rs : List SampleRecord) : Mat :=
  Mat.make rs.length m fun r c => if (((rs.getD r {}).labels).getD c false) then fone else Num.zero

/-- What a candidate's training has reached. -/
def State.trainState (s : State) (k : Nat) (c : Candidate) : TrainState :=
  let sh := s.sys.headMats k .shipped
  let m := groupBits k
  { w1 := Mat.ofWords 256 64 c.w1, w2 := Mat.ofWords 64 m c.w2, v1 := Mat.ofWords 256 64 c.v1, v2 := Mat.ofWords 64 m c.v2, s1 := sh.1, s2 := sh.2 }

/-- `n` training steps of a candidate over its group's ring. -/
def State.trained (s : State) (k n : Nat) (c : Candidate) : TrainState :=
  let ring := (s.headGroup k).ring
  (List.range n).foldl (fun t i =>
    let rs := stepRecords ring (c.steps + i)
    trainStep (s.jobMode 4 4) (ofFp32 (s.adaptParam 8 4)) (ofFp32 (s.adaptParam 0xC 4)) (s.featureMat (k / 256) rs) (labelMat (groupBits k) rs) t)
    (s.trainState k c)

/-- Training steps of a block; the last one tests the deviation limit and quantises the head (R142). [DESIGN CHOICE: log 98] -/
def trainBlock (k steps : Nat) (c : Candidate) (s : State) : State :=
  let limit := s.adaptParam 6 2
  let n := min (c.steps + steps) limit
  let t := s.trained k (n - c.steps) c
  let c1 := { c with steps := n, w1 := t.w1.words, w2 := t.w2.words, v1 := t.v1.words, v2 := t.v2.words }
  let put (c2 : Candidate) : State := s.setHeadGroup k { s.headGroup k with candidate := some c2 }
  if n < limit then put c1
  else if t.deviates (ofFp32 (s.adaptParam 0x10 4)) then rejectCandidate k 1 s
  else (put { c1 with trained := true }).onSys fun y => y.writeHead k .candidate (t.w1.quantised ++ t.w2.quantised)

/-- LLRs that a head gives a held-back payload from its stored features, descrambled (R96, R144); a symbol without a record is an erasure. [DEDUCED: log 247] -/
def State.heldLlrs (s : State) (k : Nat) (p : HeadPlace) (h : HeldBack) : List Int :=
  let pr := profileOf h.profile
  let m := groupBits k
  let n := payloadBits pr.rate pr.z (8 * h.payload.length)
  let raw := (List.range (n / m)).flatMap fun j =>
    match h.records.find? fun r => r.symbol == j with
    | some r => (List.range m).map fun i => (s.headOutput k p (r.features.map BitVec.toInt)).getD i 0
    | none => List.replicate m 0
  (raw.zip (scramblerBits n (sessionSeed h.shortId.toNat))).map fun e => if e.2 then -e.1 else e.1

/-- A head over the held-back set: payloads that pass CRC-24, the sum of R144's loss, and the coded bits it was summed over. -/
def State.headScore (s : State) (k : Nat) (p : HeadPlace) (set : List HeldBack) : Nat × Int × Nat :=
  set.foldl (fun (a : Nat × Int × Nat) h =>
    let pr := profileOf h.profile
    let l := s.heldLlrs k p h
    let bits := (decodeBlocks (s.weights (weightInstance pr)) false pr (8 * h.payload.length) l).1
    let ok := crc24From crc24Init bits == 0
    (a.1 + ok.toNat, a.2.1 + llrLoss (encodePayload pr.rate pr.z (bytesBits h.payload)) l, a.2.2 + l.length)) (0, 0, 0)

/-- Validation (R144, R145); where both conditions fail the reason is CRC. [DESIGN CHOICE: log 248] -/
def validateBlock (k : Nat) (c : Candidate) (s : State) : State :=
  let set := c.heldSet.getD (s.headGroup k).held
  let cand := s.headScore k .candidate set
  let act := s.headScore k .active set
  let margin := s.adaptFp 0x18
  if cand.1 < act.1 then rejectCandidate k 3 s
  else if (act.2.1 - cand.2.1) * margin.2 < margin.1 * (cand.2.2 * 2 ^ fixBits : Nat) then rejectCandidate k 4 s
  else s.setHeadGroup k { s.headGroup k with candidate := some { c with validated := some s.job.slot } }

/-- One ADAPT block of a group (R79, R142 to R145): the work that is next for its candidate. [DESIGN CHOICE: log 98, 248] -/
def adaptBlock (a : AdaptBlock) (s : State) : State :=
  let k := adaptKey a.airClass.toNat a.group.toNat
  if !s.slackFor a.refNs || !s.adapting k then s
  else
    let s0 := if s.mayTrain k then startCandidate k s else s
    match (s0.headGroup k).candidate with
    | none => s0
    | some c =>
      if a.poison || (c.trained && s0.sys.headPoisoned k .candidate) then rejectCandidate k 2 s0
      else if !c.trained then trainBlock k a.steps c s0
      else if c.validated.isNone && a.validate && decide (s0.adaptParam 0x14 1 ≤ (c.heldSet.getD (s0.headGroup k).held).length) then
        validateBlock k c s0
      else s0

/-! ### Promotion and rollback (R146 to R148) -/

/-- Replace active by candidate, previous by active, open the rollback watch and raise HEAD_PROMOTE. [DEDUCED: log 96] -/
def promote (k : Nat) (s : State) : State :=
  let g := s.headGroup k
  match g.candidate with
  | none => s
  | some _ =>
    let v := g.active.version + 1
    let recent := g.closed.filter fun e => decide (s.sys.now ≤ e.1 + s.adaptParam 0x20 4 * 1000000000)
    let w : Watch := { start := s.sys.now, baseOk := (recent.filter Prod.snd).length, baseAll := recent.length }
    (s.setHeadGroup k { g with
      previous := some g.active, active := { version := v }, candidate := none, watch := some w }).onSys
      fun y => ((y.copyHead k .active .previous).copyHead k .candidate .active).event Cls.HEAD_PROMOTE [(2, 1, k / 256), (3, 1, k % 256), (4, 2, v.toNat), (8, 6, s.job.slot % 2 ^ 48)]

/-- Nanoseconds of 24 h. -/
def dayNs : Nat := 86400000000000

/-- Previous becomes active, previous is empty, any candidate goes, HEAD_ROLLBACK; after ROLLBACK_LIMIT rollbacks in 24 h
the group is suspended (R147, R148). [DEDUCED: log 95] -/
def rollback (k cause : Nat) (s : State) : State :=
  let g := s.headGroup k
  match g.previous with
  | none => s
  | some p =>
    let recent := (g.rollbacks.filter fun t => decide (s.sys.now < t + dayNs)) ++ [s.sys.now]
    let out := decide (s.adaptParam 0x15 1 ≤ recent.length) && !g.suspended
    let s1 := (s.setHeadGroup k { g with
      active := p, previous := none, candidate := none, watch := none, rollbackDue := false, rollbacks := recent,
      suspended := g.suspended || out }).onSys fun y =>
        (y.copyHead k .previous .active).event Cls.HEAD_ROLLBACK [(2, 1, k / 256), (3, 1, k % 256), (4, 2, p.version.toNat), (6, 1, cause), (8, 6, s.job.slot % 2 ^ 48)]
    if out then s1.onSys fun y => y.event Cls.HEAD_ADAPT_SUSPENDED [(2, 1, k / 256), (3, 1, k % 256), (4, 1, recent.length)] else s1

/-- Is the pass rate since the promotion more than ROLLBACK_MARGIN points below the baseline (R147)? A baseline without
bursts is `free` per mille, a value the manual does not state. [DESIGN CHOICE: log 100] -/
def belowBaseline (w : Watch) (margin : Int × Nat) (free : Nat) : Bool :=
  let bo := if w.baseAll = 0 then free % 1001 else w.baseOk
  let ba := if w.baseAll = 0 then 1000 else w.baseAll
  decide ((w.ok * ba * 100 * margin.2 : Nat) + margin.1 * (w.all * ba : Nat) < ((bo * w.all * 100 * margin.2 : Nat) : Int))

/-- One second of a watch: compared once MIN_BURSTS have closed; the watch ends after ROLLBACK_WATCH. [DESIGN CHOICE: log 100, 254] -/
def watchCheck (k : Nat) (s : State) : State :=
  let g := s.headGroup k
  match g.watch with
  | none => s
  | some w =>
    let second := (s.sys.now - w.start) / 1000000000
    if second ≤ w.checked then s
    else
      let free := Config.freeNat s.sys.seed
      let s0 := if w.baseAll = 0 then s.onSys fun y => { y with seed := y.seed + 1 } else s
      let low := decide (s.adaptParam 0x24 4 ≤ w.all) && belowBaseline w (s.adaptFp 0x1C) free
      let past := decide (s.adaptParam 0x20 4 ≤ second)
      s0.setHeadGroup k { g with
        rollbackDue := g.rollbackDue || low,
        watch := if past then none else some { w with checked := second } }

/-- Does the module's own rule roll back (2) or promote (1) a group at this boundary (R146, R147)? 0: neither. -/
def HeadGroup.due (g : HeadGroup) : Nat :=
  if g.rollbackDue && g.previous.isSome then 2
  else match g.candidate with
    | some c => if c.validated.isSome then 1 else 0
    | none => 0

/-- Promotions and rollbacks due at a boundary, for groups no host command has decided (R146, R147, R150). [DESIGN CHOICE: log 254] -/
def headBoundary (decided : List Nat) (s : State) : State :=
  s.adapt.groups.foldl (fun a e =>
    if decided.contains e.1 then a
    else match e.2.due with
      | 2 => rollback e.1 0 a
      | 1 => promote e.1 a
      | _ => a) s

/-- With DETERMINISTIC, a candidate is validated on the set as committed at the boundary after its first slot (R565). -/
def freezeHeldSets (s : State) : State :=
  if s.deterministic then
    { s with adapt := { s.adapt with groups := s.adapt.groups.map fun e => (e.1, { e.2 with
        candidate := e.2.candidate.map fun c =>
          if c.heldSet.isNone && c.firstSlot == s.job.slot then { c with heldSet := some e.2.held } else c }) } }
  else s

/-! ### Host commands (R149, R150) -/

/-- One head command on a group: the state and the completion status (0 OK, 1 NOT_APPLICABLE). [DEDUCED: log 94, 95] -/
def headCommand (opcode k : Nat) (s : State) : State × Nat :=
  let g := s.headGroup k
  if !s.listedGroups.contains k then (s, 1)
  else
    match opcode with
    | 0x10 => (s.setHeadGroup k { g with disabled := false }, 0)
    | 0x11 => if g.disabled || g.suspended then (s, 1) else (s.setHeadGroup k { g with disabled := true }, 0)
    | 0x12 => (s.setHeadGroup k { g with suspended := false, rollbacks := [] }, 0)
    | 0x13 => if g.previous.isNone || !s.adapting k then (s, 1) else (rollback k 1 s, 0)
    | _ =>
      if !s.adapting k then (s, 1)
      else ((s.setHeadGroup k { g with active := {}, previous := none, candidate := none, watch := none, rollbackDue := false }).onSys
        fun y => y.copyHead k .shipped .active, 0)

/-- A head command as its boundary applies it; HEAD_REVERT and HEAD_RESET decide their group for that boundary. [DEDUCED: log 94] -/
def applyHeadCommand (opcode : Nat) (seqno : BitVec 16) (airClass group : Nat) (s : State) : State :=
  if s.job.state != .running then s.onSys fun y => y.completion Cls.COMPLETION 0 opcode seqno.toNat 3 0 0
  else
    let k := adaptKey airClass group
    let inRange := decide (airClass < 12) && decide (group < 16)
    let r := if inRange then headCommand opcode k s else (s, 1)
    let t := if (opcode = 0x13 || opcode = 0x14) && r.2 == 0 then { r.1 with job := { r.1.job with headDone := r.1.job.headDone ++ [k] } } else r.1
    t.onSys fun y => y.completion Cls.COMPLETION 0 opcode seqno.toNat r.2 0 0

/-! ### Persistence (R120, R151) -/

/-- Keep active and previous heads; drop candidates, samples and pending records. -/
def keepHeads (s : State) : State :=
  { s with adapt := { groups := s.adapt.groups.map fun e => (e.1, { e.2 with candidate := none, ring := [], held := [], since := 0 }) } }

/-- A watch that runs when the image is loaded again starts afresh with its baseline (Table 04-13). [DEDUCED: log 101] -/
def restartWatches (s : State) : State :=
  { s with adapt := { s.adapt with groups := s.adapt.groups.map fun e => (e.1, { e.2 with
      watch := e.2.watch.map fun w => { w with start := s.sys.now, ok := 0, all := 0, checked := 0 } }) } }

/-- Keys of the head groups of the resident image (R136). -/
def State.imageGroups (s : State) : List Nat :=
  ((List.range 12).filter fun a => (s.imgNat 0x20 2).testBit a).flatMap fun a => (List.range (s.imgNat 0x24 1)).map (adaptKey a)

/-- Bytes of a shipped head in its HEAD_BANK section (R298, Table 04-3). -/
def State.shippedBytes (s : State) (key : Nat) : List Byte :=
  match s.section' 4 (key / 256) with
  | none => []
  | some e =>
    let h1 := tensorNo s.imgNat e.1 (2 * (key % 256))
    let start := h1.scaleAt - 32
    (List.range ((tensorAt s.imgNat h1.next).next - start)).map fun i => BitVec.ofNat 8 (s.imgNat (start + i) 1)

/-- Every group back to its shipped head: the head bank takes the image's (R120, R151). -/
def shippedHeads (s : State) : State :=
  { s with adapt := {}, sys := s.imageGroups.foldl (fun y k => (y.writeHead k .shipped (s.shippedBytes k)).writeHead k .active (s.shippedBytes k)) s.sys }

end Sys2Proof.Machine
end

