-- ==== Sys2Proof/Machine/Channelise.lean ====
section
/-! DEFINITION. The wideband samples of the slot buffer, the filter bank and the channel samples of CHAN, and the gain loop's arithmetic
(R80 to R89). -/

namespace Sys2Proof.Machine

/-! ### Wideband samples (R80 to R82) -/

/-- Wideband samples of one stream in a slot. -/
def Sys.streamSamples (y : Sys) : Nat :=
  y.slotLen * 2048 / 10000 / (if y.regField 0x080020 2 1 = 1 then 2 else 1)

/-- Antenna streams that configured radio units serve (R463). -/
def Sys.configuredStreams (y : Sys) : List Nat :=
  (List.range 32).filter fun st => (List.range 8).any fun u =>
    let c := y.reg (0x040108 + 16 * u)
    c.testBit 0 && c.testBit (16 + st)

/-- Key of a slot's stream. -/
def streamKey (slot st : Nat) : Nat := slot * 32 + st

/-- What was received of a slot's wideband sample. -/
def State.received? (s : State) (slot st i : Nat) : Option (Int × Int) :=
  ((mapGet (fun _ => []) (streamKey slot st) s.rx.ingest).find? fun e => e.1 == i).map Prod.snd

/-- A slot's wideband sample: what was received, else zero (R81). -/
def State.wideband (s : State) (slot st i : Nat) : Int × Int := (s.received? slot st i).getD (0, 0)

/-- A wideband sample by its number since air time 0. -/
def State.wideAt (s : State) (st g : Nat) : Int × Int := s.wideband (g / s.sys.streamSamples) st (g % s.sys.streamSamples)

/-! ### Channel samples (R75, R84) -/

/-- Streams of a channel's antenna group. -/
def Channel.group (c : Channel) : List Nat := (List.range 32).filter fun i => c.streams.getLsbD i

/-- Air time between channel samples, T/2 in 1/384 ns. -/
def halfSymbol (id : BitVec 16) : Nat := symbolTime (channelWidth id) / 2

/-- Number of the first sample at or after an instant in 1/384 ns. -/
def firstSample (id : BitVec 16) (t : Nat) : Nat := (t + halfSymbol id - 1) / halfSymbol id

/-- Numbers of the channel samples whose air time falls in the slot in progress (R75). -/
def State.slotSamples (s : State) (id : BitVec 16) : List Nat :=
  let lo := firstSample id (s.slotStart * unitsPerNs)
  (List.range (firstSample id (s.slotEnd * unitsPerNs) - lo)).map (lo + ·)

/-! ### CHAN (R83, R84, R113) -/

/-- CINT16 saturation of one component. -/
def satCint (x : Int) : Int := if x < -32768 then -32768 else if 32767 < x then 32767 else x

def satPair (p : Int × Int) : Int × Int := (satCint p.1, satCint p.2)

/-- Points N of the filter bank (Table 03-4). -/
def Sys.bankPoints (y : Sys) : Nat := if y.regField 0x080020 2 1 = 1 then 4096 else 8192

/-- Air time of a hop in ns: N/2 samples at either rate. -/
def hopNs : Nat := 20000

/-- Tap `i` of the prototype filter, in 2^-15 (Table 04-3). -/
def State.tap (s : State) (i : Nat) : Int :=
  match s.section' 1 0 with
  | some e => toSigned 16 (s.imgNat (e.1 + 2 * i) 2)
  | none => 0

/-- Point `i` of the polyphase fold of a hop: six products over the 6N samples that end with the hop. [DEDUCED: log 230] -/
def State.foldPoint (s : State) (st hop i : Nat) : Int × Int :=
  let n := s.sys.bankPoints
  (List.range 6).foldl (fun (a : Int × Int) p =>
    let g := (hop + 1) * (n / 2) + i + p * n
    if g < 6 * n then a
    else
      let x := s.wideAt st (g - 6 * n)
      let h := s.tap (i + p * n)
      (a.1 + h * x.1, a.2 + h * x.2)) (0, 0)

/-- Output of a grid bin at a hop, CINT16 (R83). [UNVERIFIED: log 231] -/
def State.binOutput (s : State) (st hop bin : Nat) : Int × Int :=
  satPair (Config.dftOutput s.sys.bankPoints hop bin ((List.range s.sys.bankPoints).map (s.foldPoint st hop)))

/-- Channel sample `k` on a stream before saturation: the outputs of the channel's bins over the hops of this slot and the one before,
resampled (R84). [UNVERIFIED: log 231] -/
def State.rawSample (s : State) (c : Channel) (st k : Nat) : Int × Int :=
  let first := (s.slotStart - s.sys.slotLen) / hopNs
  let hops := (List.range (s.slotEnd / hopNs - first)).map (first + ·)
  let bins := (List.range (channelWidth c.id)).map (channelFirst c.id + ·)
  Config.channelOutput (channelWidth c.id) k first (bins.map fun b => hops.map fun m => s.binOutput st m b)

/-- CHAN of one channel on one stream: its samples of the slot, and one count for each whose output saturates. -/
def chanStream (ins : List ChanPoison) (c : Channel) (st : Nat) (s : State) : State :=
  let raw := (s.slotSamples c.id).map fun k => (k, s.rawSample c st k)
  let sats := (raw.filter fun e => satPair e.2 != e.2).length
  let out : List Sample := raw.map fun e =>
    { k := e.1, re := satCint e.2.1, im := satCint e.2.2,
      poison := ins.any fun p => p.channel == c.id && p.stream.toNat == st && p.sample == e.1 }
  { s with rx := { s.rx with samples := mapSet (fun _ => []) (c.id.toNat * 32 + st) out s.rx.samples },
           sys := s.sys.countN Cls.CHAN_SAT sats }

/-- The CHAN phase: samples for every configured channel on every stream of its group (R84); a poisoned filter is met (R512). [DEDUCED: log 214] -/
def chanPhase (ins : List ChanPoison) (s : State) : State :=
  if s.job.phase == .chan && !s.job.worked then
    let s1 := s.job.channels.foldl (fun a c => c.group.foldl (fun b st => chanStream ins c st b) a)
      { s with rx := { s.rx with samples := [] } }
    { s1 with job := { s1.job with worked := true }, sys := { s1.sys with weightPoison := s1.sys.weightPoison || s1.sectionPoisoned 1 0 } }
  else s

/-! ### Gain loop (R86 to R89) -/

/-- Does |x| × 10^(code/80) / 256 round to `n` or more (ties away from zero)? -/
def scaleReaches (power n : Nat) : Bool := decide (((2 * n - 1) * 128) ^ 80 ≤ power)

/-- The largest `n ≤ 127` that the scaled magnitude reaches. -/
def scaleMag (power : Nat) : Nat := ((List.range 127).filter fun n => scaleReaches power (n + 1)).length

/-- One component at gain code G, and whether it saturated (R86). -/
def gainApply (code : Nat) (x : Int) : Int × Bool :=
  let power := x.natAbs ^ 80 * 10 ^ code
  let m := scaleMag power
  ((if x < 0 then -(m : Int) else m), scaleReaches power 128)

/-- The gain code after a window of 8 samples with total power `p` (Table 03-5). -/
def gainAdjust (code p : Nat) : Nat :=
  if 10 * 9216 ^ 10 < p ^ 10 then
    code - ((List.range 256).find? fun k => decide (p ^ 40 ≤ 9216 ^ 40 * 10 ^ k)).getD 255
  else if 10 * p ^ 10 < 9216 ^ 10 then
    min 255 (code + ((List.range 7).filter fun k => decide (10 ^ (k + 1) * p ^ 40 ≤ 9216 ^ 40) && decide (k < 6)).length)
  else code

def gainDefault (_ : Nat) : StreamGain := {}

def State.gainOf (s : State) (c : Channel) (st : Nat) : StreamGain := mapGet gainDefault (c.id.toNat * 32 + st) s.rx.gains

/-- Gain codes of a channel's antenna group. -/
def State.groupGains (s : State) (c : Channel) : List Nat := c.group.map fun st => (s.gainOf c st).code

/-- Is the channel's gain frozen at an instant: a burst from DETECTED to OPEN triggered at or before it, or the last
burst's ramp-down not over (R87, R88)? -/
def State.frozenAt (s : State) (ch t : Nat) : Bool :=
  (s.rx.bursts.any fun b => b.channel.toNat == ch && b.active && decide (b.trigger ≤ t))
    || decide (t < natAt s.rx.rampEnd ch)

/-- A CINT16 sample scaled by a gain code, and the components that saturated (R86). -/
def scaleSample (code : Nat) (x : Sample) : Sample × Nat :=
  let a := gainApply code x.re
  let b := gainApply code x.im
  ({ k := x.k, re := a.1, im := b.1, code := code, poison := x.poison }, a.2.toNat + b.2.toNat)

def Sample.power (x : Sample) : Nat := x.re.natAbs ^ 2 + x.im.natAbs ^ 2

/-- The gain loop takes a scaled sample: at the end of a window the code follows Table 03-5 unless the gain is frozen; a window goes on
through a freeze. [DESIGN CHOICE: log 233] -/
def StreamGain.take (g : StreamGain) (frozen : Bool) (x : Sample) : StreamGain :=
  let p := g.windowPower + x.power
  let full := g.windowLen == 7
  { code := if full && !frozen then gainAdjust g.code p else g.code, frozen := frozen,
    windowLen := if full then 0 else g.windowLen + 1, windowPower := if full then 0 else p }

/-- Largest r with r^40 ≤ v, of `n` bits. -/
def root40 (v : Nat) : Nat → Nat → Nat
  | 0, r => r
  | n + 1, r => if (r + 2 ^ n) ^ 40 ≤ v then root40 v n (r + 2 ^ n) else root40 v n r

/-- Power of a scaled sample with its gain removed (R89), in 2^-32 of CINT16 power. [DEDUCED: log 234] -/
def Sample.freePower (x : Sample) : Nat := root40 ((x.power * 2 ^ 48) ^ 40 / 10 ^ x.code) 64 0

/-- A scaled sample of a stream by its number; zero where the buffer holds none. -/
def State.scaledAt (s : State) (id : BitVec 16) (st k : Nat) : Sample :=
  ((mapGet (fun _ => []) (id.toNat * 32 + st) s.rx.scaled).find? fun x => x.k == k).getD { k := k }

/-- Mean power of a stream over the window of 8 samples that ends with sample `k`, its gain removed. [DEDUCED: log 234] -/
def State.freeWindow (s : State) (id : BitVec 16) (st k : Nat) : Nat :=
  ((List.range 8).map fun i => (s.scaledAt id st (k - i)).freePower).foldl (· + ·) 0 / 8

/-- Total INT8 power of a stream over that window. -/
def State.windowPower (s : State) (id : BitVec 16) (st k : Nat) : Nat :=
  ((List.range 8).map fun i => (s.scaledAt id st (k - i)).power).foldl (· + ·) 0

/-- Mean window power over the group. -/
def State.groupPower (s : State) (c : Channel) (k : Nat) : Nat :=
  (c.group.map fun st => s.freeWindow c.id st k).foldl (· + ·) 0 / max 1 c.group.length

/-- RSSI from the group's window that ends with sample `k`, the gains removed (R89). [UNVERIFIED: log 235] -/
def State.rssiAt (s : State) (c : Channel) (k : Nat) : Int := Config.rssiDbm (c.group.map fun st => s.freeWindow c.id st k)

end Sys2Proof.Machine
end

