-- ==== Sys2Proof/Machine/Detect.lean ====
section
/-! DEFINITION. Detection and synchronisation (R90 to R92), channel by channel and sample by sample with the gain loop (R86 to R89), and
the ranking of colliding bursts (R98). -/

namespace Sys2Proof.Machine

/-! ### Phase (R90, R97) -/

/-- x × conj(x′). -/
def conjMul (a b : Sample) : Int × Int := (a.re * b.re + a.im * b.im, a.im * b.re - a.re * b.im)

/-- arg of a sum of products; the sum 0 has none. [DESIGN CHOICE: log 236] -/
def argOf (id : BitVec 16) (st k : Nat) (p : Int × Int) : Int :=
  if p.1 = 0 ∧ p.2 = 0 then wrapAngle (Config.phaseOfZero (id.toNat * 64 + st) k) else argFix p.1 p.2

/-- φ[k]: phase change over one symbol, summed over the group (R90). -/
def State.groupPhase (s : State) (c : Channel) (k : Nat) : Int :=
  argOf c.id 32 k ((c.group.map fun st => conjMul (s.scaledAt c.id st k) (s.scaledAt c.id st (k - 2))).foldl
    (fun a p => (a.1 + p.1, a.2 + p.2)) (0, 0))

/-- A fraction whose denominator may be 0: then a value the manual does not state. [DESIGN CHOICE: log 236] -/
def metricOr (id : BitVec 16) (k num den : Nat) : Nat × Nat :=
  if den = 0 then (Config.metricOfZero id.toNat k, 100) else (num, den)

/-- The preamble metric M[k] (R90). -/
def State.metric (s : State) (c : Channel) (k : Nat) : Nat × Nat :=
  let ph := (List.range 16).map fun m => s.groupPhase c (k - 2 * m)
  let alt := (ph.zip (List.range 16)).foldl (fun a e => if e.2 % 2 = 0 then a + e.1 else a - e.1) 0
  metricOr c.id k alt.natAbs ((ph.map Int.natAbs).foldl (· + ·) 0)

/-- 2π × CFO × T, the phase a CFO in Hz gives over a symbol. -/
def cfoPhase (id : BitVec 16) (cfo : Int) : Int := 2 * piFix * cfo / (9600 * channelWidth id : Nat)

/-- Largest CFO of Table 03-6, Rs/8 in Hz. -/
def cfoLimit (id : BitVec 16) : Nat := 1200 * channelWidth id

/-- The correlation C of the uplink sync word whose last symbol ends at sample `p` (R91); a negative sum is no match. -/
def State.syncCorr (s : State) (c : Channel) (cfo : Int) (p : Nat) : Nat × Nat :=
  let d := (List.range 24).map fun m => wrapAngle (s.groupPhase c (p - 2 * (23 - m)) - cfoPhase c.id cfo)
  let sum := ((syncSymbols false uplinkSync).zip d).foldl (fun a e => a + e.1 * e.2) 0
  metricOr c.id p sum.toNat ((d.map Int.natAbs).foldl (· + ·) 0)

/-! ### The detector (R90, R92) -/

/-- One evaluation: metric M and window power of the group, the noise floor, the sample's air time, and the estimates of a burst that
fires. -/
structure DetEval where
  channel : BitVec 16
  metricNum : Nat := 0
  metricDen : Nat := 1
  power : Nat := 0
  floor : Nat := 0
  time : Nat := 0
  rssi : Int := 0
  cfo : Int := 0
  deriving DecidableEq, Repr

def State.channelBursts (s : State) (ch : BitVec 16) : List Burst :=
  s.rx.bursts.filter fun b => b.channel == ch && b.active

/-- See the log. [DEDUCED: log 217] -/
def State.addBurst (s : State) (b : Burst) : State :=
  { s with rx := { s.rx with bursts := s.rx.bursts ++ [{ b with handle := s.rx.nextHandle, order := s.rx.nextOrder }],
                             nextHandle := if s.rx.nextHandle + 1 = 0 then 1 else s.rx.nextHandle + 1,
                             nextOrder := s.rx.nextOrder + 1 } }

def State.setHold (s : State) (ch n : Nat) : State := { s with rx := { s.rx with holdCount := natPut s.rx.holdCount ch n } }

/-- Both conditions of R90: M ≥ DET_THRESH, and the power DET_SNR_MIN (in 0.5 dB) above the floor. -/
def DetEval.holds (e : DetEval) (p : DetParams) : Bool :=
  decide (p.thresh * e.metricDen ≤ 100 * e.metricNum) && decide (e.floor ^ 20 * 10 ^ p.snrMin ≤ e.power ^ 20)

/-- One evaluation of the preamble detector (R90): it fires when both conditions have held at DET_HOLD consecutive
evaluations, never on a channel that holds a burst (R92), where the count of evaluations is 0. A burst that enters DETECTED takes the gains
in force (R87). [DESIGN CHOICE: log 232] -/
def detEval (e : DetEval) (s : State) : State :=
  match s.channelCfg e.channel with
  | none => s
  | some c =>
    let p := s.detParams c.airClass
    let ch := e.channel.toNat
    if !(s.channelBursts e.channel).isEmpty then s.setHold ch 0
    else
      let n := if e.holds p then natAt s.rx.holdCount ch + 1 else 0
      if p.hold ≤ n then
        (s.setHold ch 0).addBurst
          { channel := e.channel, airClass := c.airClass, state := .detected, trigger := e.time, rssi := e.rssi,
            cfo := e.cfo, frozen := s.groupGains c }
      else s.setHold ch n

/-- Noise floor of a channel. [DESIGN CHOICE: log 237] -/
def State.floorOf (s : State) (id : BitVec 16) : Nat :=
  let v := natAt s.rx.noiseFloor id.toNat
  if v = 0 then Config.firstNoiseFloor id.toNat else v - 1

/-- The floor takes a window without a burst, with weight 1/64 (R90). -/
def noteFloor (c : Channel) (k : Nat) (s : State) : State :=
  if (s.channelBursts c.id).isEmpty then
    { s with rx := { s.rx with noiseFloor := natPut s.rx.noiseFloor c.id.toNat ((63 * s.floorOf c.id + s.groupPower c k) / 64 + 1) } }
  else s

/-- The estimate DETECT's estimators give for a channel's preamble, its CFO within the range of Table 03-6. [DEDUCED: log 214; DESIGN CHOICE: log 268] -/
def estOf (ests : List DetEst) (c : Channel) : DetEst :=
  let e := (ests.find? fun e => e.channel == c.id).getD { channel := c.id }
  { e with cfo := limitTo e.cfo (cfoLimit c.id), refine := limitTo e.refine 4 }

/-- The evaluation at a channel sample. -/
def State.evalAt (s : State) (c : Channel) (cfo : Int) (k : Nat) : DetEval :=
  let m := s.metric c k
  { channel := c.id, metricNum := m.1, metricDen := m.2, power := s.groupPower c k, floor := s.floorOf c.id,
    time := k * halfSymbol c.id, rssi := s.rssiAt c k, cfo := cfo }

/-- Sample `k` of a channel is scaled on every stream with the gains in force, clipping counted while they are frozen (R86, R89). -/
def scaleStep (c : Channel) (k : Nat) (s : State) : State :=
  let fz := s.frozenAt c.id.toNat (k * halfSymbol c.id)
  c.group.foldl (fun a st =>
    let key := c.id.toNat * 32 + st
    let x := ((mapGet (fun _ => []) key a.rx.samples).find? fun x => x.k == k).getD { k := k }
    let r := scaleSample (a.gainOf c st).code x
    let clips := if fz then r.2 else 0
    { a with rx := { a.rx with scaled := mapSet (fun _ => []) key (mapGet (fun _ => []) key a.rx.scaled ++ [r.1]) a.rx.scaled,
                               clips := natPut a.rx.clips c.id.toNat (natAt a.rx.clips c.id.toNat + clips) },
             sys := a.sys.countN Cls.GAIN_CLIP clips }) s

/-- The gain loops of a channel take sample `k` as it was scaled; a window that ends adds to the noise floor (R86, R90). -/
def gainStep (c : Channel) (k : Nat) (s : State) : State :=
  let fz := s.frozenAt c.id.toNat (k * halfSymbol c.id)
  let ends := c.group.any fun st => (s.gainOf c st).windowLen == 7
  let s1 := if ends then noteFloor c k s else s
  c.group.foldl (fun a st =>
    let g := (a.gainOf c st).take fz (a.scaledAt c.id st k)
    { a with rx := { a.rx with gains := mapSet gainDefault (c.id.toNat * 32 + st) g a.rx.gains } }) s1

/-- A channel sample: scaled, evaluated when its number is even (once per symbol), and taken by the gain loop, so that a burst that fires at
it freezes the gains of the windows before it (R87, R90). [DEDUCED: log 234] -/
def sampleStep (c : Channel) (est : DetEst) (k : Nat) (s : State) : State :=
  let s1 := scaleStep c k s
  gainStep c k (if k % 2 = 0 then detEval (s1.evalAt c est.cfo k) s1 else s1)

/-! ### Sync search (R91, R92) -/

/-- A position the search accepts: end of the last sync symbol in 1/384 ns, correlation C as a fraction, CFO in Hz, RSSI in 1/16 dBm and
SNR in 0.25 dB; `busy` for the continuous search. -/
structure SyncHit where
  channel : BitVec 16
  busy : Bool := false
  time : Nat := 0
  corrNum : Nat := 0
  corrDen : Nat := 1
  cfo : Int := 0
  rssi : Int := 0
  snr : Int := 0
  deriving DecidableEq, Repr

/-- The first position of `n` from `lo` on with C at the threshold, in percent. -/
def State.crossing (s : State) (c : Channel) (cfo : Int) (thr lo n : Nat) : Option Nat :=
  ((List.range n).map (lo + ·)).find? fun p => let r := s.syncCorr c cfo p; decide (thr * r.2 ≤ 100 * r.1)

/-- The position of the largest C from `p` to one symbol after it, the earliest of equals. [DEDUCED: log 238] -/
def State.bestSync (s : State) (c : Channel) (cfo : Int) (p : Nat) : Nat :=
  [p + 1, p + 2].foldl (fun b q =>
    let x := s.syncCorr c cfo b
    let y := s.syncCorr c cfo q
    if x.1 * y.2 < y.1 * x.2 then q else b) p

/-- Position `p` as a hit, refined in T/16. -/
def State.hitAt (s : State) (c : Channel) (busy : Bool) (e : DetEst) (cfo : Int) (p : Nat) : SyncHit :=
  let r := s.syncCorr c cfo p
  { channel := c.id, busy := busy, time := ((p * halfSymbol c.id : Nat) + e.refine * (halfSymbol c.id / 8 : Nat) : Int).toNat,
    corrNum := r.1, corrDen := r.2, cfo := cfo, rssi := s.rssiAt c p, snr := e.snr }

/-- One sync-search result (R91, R92); a second burst at the same position and CFO estimate is never accepted (R98). -/
def syncHit (h : SyncHit) (s : State) : State :=
  match s.channelCfg h.channel with
  | none => s
  | some c =>
    let sameHit := (s.channelBursts h.channel).any fun b => b.state != .detected && b.syncTime == h.time && b.cfo == h.cfo
    if h.busy then
      if (s.channelBursts h.channel).isEmpty || sameHit then s
      else if 3 ≤ (s.channelBursts h.channel).length then s.onSys fun y => y.count Cls.COLLISION_OVERFLOW
      else s.addBurst
      { channel := h.channel, airClass := c.airClass, state := .synced, trigger := h.time,
        syncTime := h.time, syncSlot := s.job.slot, corrNum := h.corrNum, corrDen := h.corrDen, cfo := h.cfo,
        rssi := h.rssi, snr := h.snr, frozen := s.groupGains c }
    else
      match s.rx.bursts.find? fun b => b.channel == h.channel && b.state == .detected with
      | none => s
      | some b =>
        if sameHit then s
        else s.setBurst { b with state := .synced, syncTime := h.time, syncSlot := s.job.slot, corrNum := h.corrNum,
                                 corrDen := h.corrDen, cfo := h.cfo, snr := h.snr }

/-- Half-symbol positions of the sync search window: 48 symbols (Table 03-6). -/
def syncWindow : Nat := 96

/-- Number of the last channel sample of the slot. -/
def State.lastSample (s : State) (id : BitVec 16) : Nat := firstSample id (s.slotEnd * unitsPerNs) - 1

/-- The search of R91 for the channel's burst in DETECTED: over its window as far as samples have come; without a position at SYNC_THRESH
in the whole window the burst is abandoned. -/
def ownSearch (c : Channel) (e : DetEst) (s : State) : State :=
  match s.rx.bursts.find? fun b => b.channel == c.id && b.state == .detected with
  | none => s
  | some b =>
    let lo := b.trigger / halfSymbol c.id
    let last := s.lastSample c.id
    match s.crossing c b.cfo (s.detParams c.airClass).sync lo (min (lo + syncWindow) last + 1 - lo) with
    | some p => if p + 2 ≤ last then syncHit (s.hitAt c false e b.cfo (s.bestSync c b.cfo p)) s else s
    | none =>
      if lo + syncWindow ≤ last then
        (s.discardBurst b ((lo + syncWindow) * halfSymbol c.id)).onSys fun y => y.count Cls.DET_ABANDON
      else s

/-- The continuous search of one CFO hypothesis over `n` positions from `lo` on (R92). -/
def busyHits (c : Channel) (e : DetEst) : Nat → Nat → Nat → State → State
  | 0, _, _, s => s
  | fuel + 1, lo, n, s =>
    match s.crossing c e.cfo (s.detParams c.airClass).syncBusy lo n with
    | none => s
    | some p => busyHits c e fuel (p + 3) (lo + n - (p + 3)) (syncHit (s.hitAt c true e e.cfo (s.bestSync c e.cfo p)) s)

/-- The continuous search of a channel that holds a burst, by each hypothesis, over the positions whose next symbol has come. It begins
behind the trigger of the channel's first burst. [DEDUCED: log 238] -/
def busySearch (c : Channel) (ests : List DetEst) (s : State) : State :=
  let ch := c.id.toNat
  match s.channelBursts c.id with
  | [] => { s with rx := { s.rx with searched := natPut s.rx.searched ch 0 } }
  | b :: _ =>
    let from_ := natAt s.rx.searched ch
    let lo := if from_ = 0 then b.trigger / halfSymbol c.id + 1 else from_
    let n := s.lastSample c.id - 1 - lo
    let hyps := ests.filter fun e => e.channel == c.id && decide (e.cfo.natAbs ≤ cfoLimit c.id)
    let s1 := hyps.foldl (fun a e => busyHits c { e with refine := limitTo e.refine 4 } n lo n a) s
    { s1 with rx := { s1.rx with searched := natPut s1.rx.searched ch (lo + n) } }

/-- Scaled samples that the slot buffer no longer reaches go, but for the last 256 that detection looks back on. -/
def trimScaled (c : Channel) (s : State) : State :=
  let lo := firstSample c.id (s.slotStart * unitsPerNs)
  let keep := min (lo - 256) (firstSample c.id ((s.rx.slots.foldl min s.job.slot) * s.sys.slotLen * unitsPerNs))
  let keys := c.group.map fun st => c.id.toNat * 32 + st
  let kept := keys.foldl (fun m key => mapSet (fun _ => []) key ((mapGet (fun _ => []) key m).filter fun x => decide (keep ≤ x.k)) m)
    s.rx.scaled
  { s with rx := { s.rx with scaled := kept } }

/-- DETECT of one channel. -/
def detectChannel (evals hits : List DetEst) (c : Channel) (s : State) : State :=
  let est := estOf evals c
  let s1 := (s.slotSamples c.id).foldl (fun a k => sampleStep c est k a) (trimScaled c s)
  busySearch c hits (ownSearch c est s1)

/-- The DETECT phase: one channel at a time (R90 to R92). [DEDUCED: log 214, 217] -/
def detectPhase (evals hits : List DetEst) (s : State) : State :=
  if s.job.phase == .detect && !s.job.worked then
    let s1 := s.job.channels.foldl (fun a c => detectChannel evals hits c a) s
    { s1 with job := { s1.job with worked := true } }
  else s

/-! ### Ranking of colliding bursts (R98) -/

/-- Does burst `a` rank above burst `b`? -/
def Burst.ranksAbove (a b : Burst) : Bool :=
  if a.rssi ≠ b.rssi then decide (b.rssi < a.rssi)
  else if a.syncSlot ≠ b.syncSlot then decide (a.syncSlot < b.syncSlot)
  else if a.syncTime ≠ b.syncTime then decide (a.syncTime < b.syncTime)
  else if a.corrNum * b.corrDen ≠ b.corrNum * a.corrDen then decide (b.corrNum * a.corrDen < a.corrNum * b.corrDen)
  else decide (a.cfo < b.cfo)

/-- Demodulated bursts of a channel. -/
def State.demodulated (s : State) (ch : BitVec 16) : List Burst :=
  s.rx.bursts.filter fun b => b.channel == ch && (b.state == .synced || b.state == .opened)

/-- Span of a burst's symbols in 1/384 ns: from 60 symbols before the end of its sync word to t_e, or on through the slot while
its header is not read. -/
def State.burstSpan (s : State) (b : Burst) : Nat × Nat :=
  (b.syncTime - 60 * symbolTime (channelWidth b.channel),
    if b.state == .opened || b.state == .closed then b.endTime else s.slotEnd * unitsPerNs)

/-- Do the symbols of two bursts overlap within the slot in progress (R98)? -/
def State.overlap (s : State) (b c : Burst) : Bool :=
  let p := s.burstSpan b
  let q := s.burstSpan c
  decide (max (max p.1 q.1) (s.slotStart * unitsPerNs) < min (min p.2 q.2) (s.slotEnd * unitsPerNs))

/-- Does another burst of its channel overlap this one in the slot? -/
def State.inCollision (s : State) (b : Burst) : Bool :=
  (s.demodulated b.channel).any fun c => c.handle != b.handle && s.overlap b c

/-- Is the channel collided in the slot (R98)? [DEDUCED: log 76] -/
def State.collided (s : State) (ch : BitVec 16) : Bool := (s.demodulated ch).any s.inCollision

def State.highest (s : State) (b : Burst) : Bool :=
  (s.demodulated b.channel).all fun c => c.handle == b.handle || b.ranksAbove c

end Sys2Proof.Machine
end

