-- ==== Sys2Proof/Machine/Demod.lean ====
section
/-! DEFINITION. RECV: the symbols of a burst and when they come, what the receiver networks and the discriminator make of them, and the LLRs
that reach the soft buffers (R94 to R102, R112, R123, R124, R139, R422). -/

namespace Sys2Proof.Machine

/-! ### RECV (R94 to R102, R422) -/

/-- Round a fraction to the nearest integer, ties away from zero (R292). -/
def roundFrac (num : Int) (den : Nat) : Int :=
  if den = 0 then 0
  else if num < 0 then -(((2 * num.natAbs + den) / (2 * den) : Nat) : Int) else ((2 * num.natAbs + den) / (2 * den) : Nat)

/-- LLRs of one symbol from its deviation d = num/den at the fallback grade (R97). -/
def discriminatorLlr (four : Bool) (d : Int × Nat) : List Int :=
  if four then
    [limitTo (roundFrac (24 * d.1) d.2) 127,
     limitTo (roundFrac (24 * (2 * (d.2 : Int) - (d.1.natAbs : Int))) d.2) 127]
  else [limitTo (roundFrac (48 * d.1) d.2) 127]

/-- `n` LLRs from a list: limited to ±127, erasures where it is short (R95). -/
def takeLlrs (n : Nat) (l : List Int) : List Int := (List.range n).map fun i => limitTo (l.getD i 0) 127

/-- Undo the scrambler: negate where its bit is 1 (R96). -/
def descramble (bits : List Bool) (l : List Int) : List Int :=
  (l.zip bits).map fun e => if e.2 then -e.1 else e.1

/-- Data symbols of a burst as far as known: the header's until it opens (R48, R58). -/
def Burst.dataSymbols (b : Burst) : Nat :=
  let four := (classProfile b.airClass).four
  if b.state == .opened || b.state == .closed then uplinkDataSymbols (profileOf b.profile) (b.lenM1 + 1)
  else if four then 64 else 128

/-- Write payload LLR bytes at bit position `pos` of a burst's soft buffer, each with its poison (R172, R510). -/
def writeSoft (gs : List Nat) (y : Sys) (pos : Nat) : List (Int × Bool) → Sys
  | [] => y
  | (v, p) :: rest =>
    let a := granuleAddr (gs.getD (pos / 1024) 0) + pos % 1024
    writeSoft gs (y.store a [BitVec.ofInt 8 v] p) (pos + 1) rest

/-- Read `n` LLRs from bit position `pos` of a buffer, with their poison. -/
def readSoft (gs : List Nat) (y : Sys) (pos : Nat) : Nat → List (Int × Bool)
  | 0 => []
  | n + 1 =>
    let a := granuleAddr (gs.getD (pos / 1024) 0) + pos % 1024
    ((y.peek a).toInt, y.poisoned a 1) :: readSoft gs y (pos + 1) n

/-- Put the LLRs of newly processed coded bits into a burst: header bits are kept with it, payload bits go to its soft
buffer; the seeds are those of R60. -/
def placeLlrs (s : State) (b : Burst) (raw : List Int) (poison : Nat → Bool) : State :=
  let first := b.bitsIn
  let n := raw.length
  let bits := (List.range n).map fun i => (raw.getD i 0, poison i)
  let headN := min n (128 - first)
  let headBits := ((scramblerBits 128 headerSeed).drop first).take headN
  let headLlr := descramble headBits ((bits.take headN).map Prod.fst)
  let tail := bits.drop headN
  let payPos := first + headN - 128
  let payBits := ((scramblerBits (payPos + tail.length) (sessionSeed b.shortId.toNat)).drop payPos)
  let payLlr := descramble payBits (tail.map Prod.fst)
  let b' := { b with headerLlr := b.headerLlr ++ headLlr.zip ((bits.take headN).map Prod.snd), bitsIn := first + n }
  (s.setBurst b').onSys fun y => writeSoft b.softBuf y payPos (payLlr.zip (tail.map Prod.snd))

/-- Bits per data symbol. -/
def Burst.bitsPerSymbol (b : Burst) : Nat := if (classProfile b.airClass).four then 2 else 1

/-- Data symbols that carry the header (R48). -/
def Burst.dataHeaderSymbols (b : Burst) : Nat := 128 / b.bitsPerSymbol

/-- Data symbols of a burst that have arrived by an instant (1/384 ns). -/
def Burst.arrived (b : Burst) (t : Nat) : Nat :=
  symbolsWithin (symbolTime (channelWidth b.channel)) b.dataSymbols (t - b.syncTime)

/-- Is data symbol `k` of a burst one that fell in a skipped slot (R381)? -/
def State.erased (s : State) (b : Burst) (k : Nat) : Bool :=
  s.rx.skipped.any fun j => decide (b.arrived (j * s.sys.slotLen * unitsPerNs) ≤ k ∧ k < b.arrived ((j + 1) * s.sys.slotLen * unitsPerNs))

/-- Does data symbol `k` of burst `b` overlap burst `c`? A symbol overlaps that ends after the span begins and begins before it
ends. [DEDUCED: log 76] -/
def State.symbolOverlaps (s : State) (b c : Burst) (k : Nat) : Bool :=
  let q := s.burstSpan c
  decide (b.arrived q.1 ≤ k ∧ k < b.arrived (q.2 + symbolTime (channelWidth b.channel) - 1))

/-- LLRs of symbols that overlap the highest-ranked burst erased (R102). [DEDUCED: log 76] -/
def eraseOverlapped (s : State) (b : Burst) (m from_ : Nat) (l : List Int) : List Int :=
  match (s.demodulated b.channel).find? fun c => c.handle != b.handle && s.highest c with
  | none => l
  | some c => (List.range l.length).map fun i => if s.symbolOverlaps b c (from_ + i / m) then 0 else l.getD i 0

/-- LLRs with those of skipped slots erased; `from_` is the first symbol, `m` bits a symbol. -/
def eraseSkipped (s : State) (b : Burst) (m from_ : Nat) (l : List Int) : List Int :=
  (List.range l.length).map fun i => if s.erased b (from_ + i / m) then 0 else l.getD i 0

/-- Has a burst whose session was spilled symbols of this slot to process (R422)? -/
def State.wantsContext (s : State) (b : Burst) : Bool :=
  b.state == .opened && b.waiting && decide (b.symbols < b.arrived (s.slotEnd * unitsPerNs))

/-- A burst without its context requests it again when it has symbols to process (R422). -/
def requestAgain (s : State) : State :=
  s.rx.bursts.foldl (fun a b => if s.wantsContext b then a.requestSwapIn b else a) s

/-! ### Samples and windows (R94, R124) -/

/-- End of data symbol `j` of a burst, in 1/384 ns (R50). -/
def Burst.symbolEnd (b : Burst) (j : Nat) : Nat := b.syncTime + (j + 8 * (j / 64) + 1) * symbolTime (channelWidth b.channel)

/-- Components of a scaled sample that the slot buffer or the collision store holds. -/
def State.heldSample (s : State) (id : BitVec 16) (st k : Nat) : Option (Int × Int) :=
  let key := id.toNat * 32 + st
  (((mapGet (fun _ => []) key s.rx.scaled) ++ mapGet (fun _ => []) key s.rx.store).find? fun x => x.k == k).map fun x => (x.re, x.im)

/-- Where RECV takes samples from: a stream and a sample number give the components, if the sample is there. -/
abbrev SampleSource := Nat → Nat → Option (Int × Int)

/-- The 64 input codes of a stream's window of 16 symbols, centred on an instant. [UNVERIFIED: log 239] -/
def windowCodes (src : SampleSource) (id : BitVec 16) (cfo : Int) (st centre : Nat) : List Int :=
  let k0 := centre / halfSymbol id
  let l := Config.windowInput cfo ((centre % halfSymbol id * 8 / halfSymbol id : Nat) : Int)
    ((List.range 32).map fun i => if 15 ≤ k0 + i then src st (k0 + i - 15) else none)
  (List.range 64).map fun i => limitTo (l.getD i 0) 127

/-- Centre of the reference block that a data symbol uses: the last 16 sync symbols, or the pilot block before it with four data symbols on
either side. [DEDUCED: log 240] -/
def Burst.referenceCentre (b : Burst) (j : Nat) : Nat :=
  let t := symbolTime (channelWidth b.channel)
  if j < 64 then b.syncTime - 8 * t else b.syncTime + (72 * (j / 64) - 4) * t

/-- The 32 prior features of a burst's context once it is OPEN (R94, Table 14-2); a cold context has none. -/
def State.priors (s : State) (b : Burst) : List Int :=
  match (if b.state == .opened && !b.cold then s.residentSlot b.shortId.toNat else none) with
  | some k => (List.range 32).map fun i => (s.sys.peek (contextBase k + 0x20 + i)).toInt
  | none => List.replicate 32 0

/-- Estimate features of a stream for data symbol `j` of a burst. -/
def State.estFeatures (s : State) (src : SampleSource) (b : Burst) (st j : Nat) : List Int :=
  s.estimate b.airClass (windowCodes src b.channel b.cfo st (b.referenceCentre j)) (s.priors b)

/-! ### Full grade (R99, R123, R124) -/

/-- Trunk features of data symbol `j`, from each stream's window codes with their scale. -/
def State.symbolFeatures (s : State) (src : SampleSource) (b : Burst) (c : Channel) (window : Nat → Dyad × List Int) (j : Nat) : List Int :=
  let fs := c.group.map fun st => s.estFeatures src b st j
  let mixed := (c.group.zip fs).map fun e => s.stemMix b.airClass (window e.1).1 (window e.1).2 e.2
  s.trunk b.airClass (s.combineStreams b.airClass fs mixed)

/-- A burst's own windows of the samples as they are. -/
def State.plainWindow (s : State) (src : SampleSource) (b : Burst) (j : Nat) (st : Nat) : Dyad × List Int :=
  (s.actScale b.airClass 0,
    windowCodes src b.channel b.cfo st (b.symbolEnd j - halfSymbol b.channel))

/-- Bursts of a channel that overlap a burst in the slot, with it, by rank. -/
def State.collisionOf (s : State) (b : Burst) : List Burst :=
  sortBy Burst.ranksAbove ((s.demodulated b.channel).filter fun c => c.handle == b.handle || s.overlap b c)

/-- Windows of a burst's separated signal (R99 step 1): SEP_NET over the stream's window and the features of the colliding bursts by rank. [DEDUCED: log 242] -/
def State.separatedWindow (s : State) (src : SampleSource) (b : Burst) (j : Nat) (st : Nat) : Dyad × List Int :=
  let all := s.collisionOf b
  let t := b.symbolEnd j
  let fs := all.flatMap fun x => s.estFeatures src x st (if x.handle == b.handle then j else x.arrived t)
  let out := s.separate b.airClass (s.plainWindow src b j st).2 ((List.range 96).map fun i => fs.getD i 0)
  let rank := (all.findIdx? fun x => x.handle == b.handle).getD 0
  (s.actScale b.airClass 14, (out.drop (64 * rank)).take 64)

/-- Does data symbol `j` overlap another burst of its channel? -/
def State.symbolCollides (s : State) (b : Burst) (j : Nat) : Bool :=
  (s.demodulated b.channel).any fun x => x.handle != b.handle && s.symbolOverlaps b x j

/-- The head that demaps a burst's symbols: the active head of its group, group 0 until the header names the session. [DESIGN CHOICE: log 241] -/
def Burst.headKey (b : Burst) : Nat := adaptKey b.airClass b.group

/-- LLRs and T3 features of data symbol `j` at the full grade. `apart`: from the separated signal. -/
def State.demapFull (s : State) (src : SampleSource) (apart : Bool) (b : Burst) (c : Channel) (j : Nat) : List Int × List Byte :=
  let f := s.symbolFeatures src b c (if apart then s.separatedWindow src b j else s.plainWindow src b j) j
  (takeLlrs b.bitsPerSymbol (s.activeOutput b.headKey f), f.map fun v => BitVec.ofInt 8 v)

/-! ### Fallback grade (R97, R102, R112) -/

/-- Deviation of data symbol `j` over the group, Σ p_i d_i / Σ p_i as a fraction: d_i is the phase change over the symbol less that of the
CFO, in units of π h. [DEDUCED: log 234] -/
def State.deviation (s : State) (b : Burst) (c : Channel) (j : Nat) : Int × Nat :=
  let k := (b.symbolEnd j + halfSymbol b.channel / 2) / halfSymbol b.channel
  let ps := c.group.map fun st => s.windowPower b.channel st k
  let ds := c.group.map fun st =>
    wrapAngle (argOf b.channel st k (conjMul (s.scaledAt b.channel st k) (s.scaledAt b.channel st (k - 2))) - cfoPhase b.channel b.cfo)
  let num := (ps.zip ds).foldl (fun (a : Int) e => a + e.1 * e.2) 0
  (num * 6, ps.foldl (· + ·) 0 * piFix.toNat * (classProfile b.airClass).h6)

/-- LLRs of data symbol `j` at the fallback grade; where no stream has power they are not stated. [DESIGN CHOICE: log 236] -/
def State.demapFallback (s : State) (b : Burst) (c : Channel) (j : Nat) : List Int :=
  let d := s.deviation b c j
  if d.2 = 0 then takeLlrs b.bitsPerSymbol ((List.range b.bitsPerSymbol).map fun i => Config.llrWithoutPower b.handle.toNat (b.bitsPerSymbol * j + i))
  else discriminatorLlr (classProfile b.airClass).four d

/-- Was nothing received of data symbol `j` on any stream of the group (R81)? -/
def State.zeroFilled (s : State) (b : Burst) (c : Channel) (j : Nat) : Bool :=
  let at_ (t : Nat) : Nat := t * s.sys.streamSamples / (s.sys.slotLen * unitsPerNs)
  let last := at_ (b.symbolEnd j)
  let first := at_ (b.symbolEnd j - symbolTime (channelWidth b.channel))
  c.group.all fun st => (List.range (last - first)).all fun i =>
    (s.received? ((first + i) / s.sys.streamSamples) st ((first + i) % s.sys.streamSamples)).isNone

/-! ### Poison of samples (R509, R511, Table 17-7) -/

/-- Is one of `n` scaled samples of a stream from number `lo` on derived from poison? -/
def State.samplesPoisoned (s : State) (id : BitVec 16) (lo n st : Nat) : Bool :=
  let key := id.toNat * 32 + st
  (mapGet (fun _ => []) key s.rx.scaled ++ mapGet (fun _ => []) key s.rx.store).any fun x => x.poison && decide (lo ≤ x.k ∧ x.k < lo + n)

/-- Do the windows of data symbol `j` of a burst, its own and that of its reference block, hold a poisoned sample? -/
def State.windowsPoisoned (s : State) (b : Burst) (c : Channel) (j : Nat) : Bool :=
  let at_ (centre : Nat) : Bool := c.group.any (s.samplesPoisoned b.channel (centre / halfSymbol b.channel - 15) 32)
  at_ (b.symbolEnd j - halfSymbol b.channel) || at_ (b.referenceCentre j)

/-- Are the full grade's LLRs of data symbol `j` derived from a poisoned sample? Those of a separated signal take in what the colliding
bursts' estimates take in. -/
def State.symbolPoisoned (s : State) (b : Burst) (c : Channel) (j : Nat) : Bool :=
  s.windowsPoisoned b c j ||
    (s.symbolCollides b j && (s.collisionOf b).any fun x => s.windowsPoisoned x c (x.arrived (b.symbolEnd j)))

/-- Are the fallback grade's? Its deviation takes the sample nearest the symbol's end, the one a symbol before, and the power's window. -/
def State.deviationPoisoned (s : State) (b : Burst) (c : Channel) (j : Nat) : Bool :=
  let k := (b.symbolEnd j + halfSymbol b.channel / 2) / halfSymbol b.channel
  c.group.any (s.samplesPoisoned b.channel (k - 7) 8)

/-! ### RECV of one burst -/

/-- Symbols `first` to `first + n − 1` of a burst at the fallback grade: the burst counts as processed there unless all of them were erased
for R381 or fell in zero-filled spans (R112). -/
def recvFallback (b : Burst) (c : Channel) (first n : Nat) (s : State) : State :=
  let js := (List.range n).map (first + ·)
  let used := js.any fun j => !s.erased b j && !s.zeroFilled b c j
  let b1 := { b with fallback := b.fallback || used }
  let m := b.bitsPerSymbol
  let l := eraseSkipped s b m first (js.flatMap (s.demapFallback b c))
  placeLlrs (s.setBurst b1) b1 (if s.collided b.channel && !s.highest b then eraseOverlapped s b m first l else l)
    fun k => b.badBits.contains (b.bitsIn + k) || (s.deviationPoisoned b c (first + k / m) && !s.erased b (first + k / m))

/-- The same at the full grade, with the sample records of R139; a poisoned active head or network is met (Table 04-13, R512). -/
def recvFull (b : Burst) (c : Channel) (first n : Nat) (s : State) : State :=
  let src := s.heldSample b.channel
  let out := ((List.range n).map (first + ·)).map fun j => (j, s.demapFull src (s.symbolCollides b j) b c j)
  let m := b.bitsPerSymbol
  let bad := decide (0 < n) && (s.sys.cachePoisoned b.headKey || s.sectionPoisoned 2 b.airClass || s.sectionPoisoned 3 b.airClass
    || (s.inCollision b && s.sectionPoisoned 5 b.airClass))
  let s1 := placeLlrs s b (eraseSkipped s b m first (out.flatMap fun e => e.2.1)) fun k =>
    b.badBits.contains (b.bitsIn + k) || (s.symbolPoisoned b c (first + k / m) && !s.erased b (first + k / m))
  let s2 := { s1 with sys := { s1.sys with weightPoison := s1.sys.weightPoison || bad } }
  if s.inCollision b then
    match s2.burst b.handle with
    | some b2 => s2.setBurst { b2 with tainted := true }
    | none => s2
  else if b.state == .opened then
    keepRecords b ((out.filter fun e => decide (b.dataHeaderSymbols ≤ e.1)).map fun e =>
      (e.1 - b.dataHeaderSymbols, e.2.2, b.badFeatures.contains (e.1 - b.dataHeaderSymbols) || s.symbolPoisoned b c e.1)) s2
  else s2

/-- First slot that the slot buffer holds (R82). -/
def State.oldestSlot (s : State) : Nat := s.rx.slots.foldl min s.job.slot

/-- RECV of one burst (R94, R97, R102, R422): the symbols that have come and are not processed; those that have left the slot buffer are
erasures (CTX_LATE). -/
def recvBurst (h : BitVec 32) (s : State) : State :=
  match s.burst h with
  | none => s
  | some b =>
    let c := (s.channelCfg b.channel).getD { id := b.channel, airClass := b.airClass }
    if !(b.state == .synced || (b.state == .opened && !b.waiting)) then s
    else
      let upTo := b.arrived (s.slotEnd * unitsPerNs)
      let lost := b.arrived (s.oldestSlot * s.sys.slotLen * unitsPerNs) - b.symbols
      let b0 := { b with symbols := max b.symbols upTo }
      let s1 := if lost = 0 then s.setBurst b0
        else placeLlrs ((s.setBurst b0).onSys fun y => y.count Cls.CTX_LATE) b0 (List.replicate (b.bitsPerSymbol * lost) 0) fun _ => false
      let b1 := (s1.burst h).getD b0
      let n := upTo - b.symbols - lost
      if s.job.fallback then recvFallback b1 c (b.symbols + lost) n s1 else recvFull b1 c (b.symbols + lost) n s1

/-- RECV of a burst with the poison that it meets. -/
def recvWith (ins : List RecvBurst) (s : State) (h : BitVec 32) : State :=
  match s.burst h with
  | none => s
  | some b =>
    let i := (ins.find? fun i => i.handle == h).getD { handle := h }
    recvBurst h (s.setBurst { b with badBits := i.poison, badFeatures := i.features })

end Sys2Proof.Machine
end

