-- ==== Sys2Proof/Machine/Receive.lean ====
section
/-! DEFINITION. Decoding and the soft buffers: the graph decoders and the DECODE phase of a slot (ch. 03, 05). -/

namespace Sys2Proof.Machine

/-! ### Decoders (R164 to R180) -/

/-- The decoder that serves cluster `g` (R178): its own, else g XOR 1, g XOR 4, g XOR 5, else the lowest of the quarter. [DEDUCED: log 72] -/
def Sys.decoderFor (y : Sys) (g : Nat) : Option Nat :=
  ([g, g ^^^ 1, g ^^^ 4, g ^^^ 5] ++ (List.range 16).map fun i => g / 16 * 16 + i).find? fun k => !y.decoderFenced k

/-- Queue a block; a full queue of 256 sends it to the deal list, counted once per slot (R180). -/
def State.queueBlock (s : State) (g : Nat) (b : Block) : State :=
  match s.sys.decoderFor g with
  | none => s
  | some k =>
    let d := s.decoder k
    let blk := { b with takeover := b.takeover || k != g }
    if d.queue.length < 256 && d.deal.isEmpty then s.setDecoder k { d with queue := d.queue ++ [blk] }
    else
      let t := s.setDecoder k { d with deal := d.deal ++ [blk], fullCounted := true }
      if d.fullCounted then t else t.onSys fun y => y.countLocal Cls.DEC_QUEUE_FULL 1

/-- Take the oldest block and pack the next oldest of the same instance (R163, R164), at the grade of the slot (R171). -/
def Decoder.startPass (d : Decoder) (fallback : Bool) : Decoder :=
  match d.pass, d.queue with
  | none, b :: rest =>
    let mates := (rest.filter fun c => c.weights == b.weights).take (codewordsPerPass b.z - 1)
    { d with queue := rest.filter fun c => !mates.contains c, pass := some { blocks := b :: mates, fallback := fallback } }.handOver
  | _, _ => d

/-- K′ of an open burst (R56). -/
def Burst.infoBits (b : Burst) : Nat := 8 * (b.lenM1 + 1 + 3)

def Burst.blockTotal (b : Burst) : Nat :=
  let p := profileOf b.profile
  blockCount p.rate p.z b.infoBits

/-- The retained buffer a REPEAT burst may use (R174). -/
def State.retainedFor (s : State) (b : Burst) : Option Retained :=
  if b.repeatBit then
    s.soft.retained.find? fun r => decide (s.job.slot < r.expiry) && r.shortId == b.shortId && r.seq == b.seq && r.profile == b.profile && r.lenM1 == b.lenM1
  else none

/-- Saturating sum of two LLR lists (R174). -/
def sumLlrs (a b : List Int) : List Int := (a.zip b).map fun e => limitTo (e.1 + e.2) 127

/-- The LLRs a payload block is decoded on, its poison, and whether a retained buffer entered; a poisoned retained LLR
frees that buffer (R174, R176). -/
def blockInput (s : State) (b : Burst) (blk : Nat) : State × List Int × Bool × Bool :=
  let p := profileOf b.profile
  let o := blockOffset p.rate p.z b.infoBits blk
  let n := transmittedBits p.rate p.z b.infoBits blk
  let own := readSoft b.softBuf s.sys o n
  let ownL := own.map Prod.fst
  let ownP := own.any Prod.snd
  match s.retainedFor b with
  | none => (s, ownL, ownP, false)
  | some r =>
    let old := readSoft r.granules s.sys o n
    if old.any Prod.snd then
      ((s.freeRetained b.shortId).onSys fun y => y.countLocal Cls.SOFT_POISON 1, ownL, ownP, false)
    else (s, sumLlrs old.unzip.1 ownL, ownP, true)

/-- CRC-24 register left by the burst's blocks 0 to `blk − 1` (R167). -/
def Burst.crcBefore (b : Burst) (blk : Nat) : Nat :=
  crc24From crc24Init ((List.range blk).flatMap fun i =>
    match b.results.find? fun r => r.block == i with
    | some r => r.bits
    | none => [])

/-- Load a codeword into the posterior RAM, its check messages 0 (R159). -/
def loadWord (blk : Block) (s : State) : State × PassWord :=
  match s.burst blk.handle with
  | none => (s, { block := blk })
  | some b =>
    if blk.block = 0xFFFF then
      (s, { block := blk, post := headerPosteriors (takeLlrs 128 (b.headerLlr.map Prod.fst)), poison := b.headerLlr.any Prod.snd })
    else
      let p := profileOf b.profile
      let x := blockInput s b blk.block
      (x.1, { block := blk, llr := x.2.1, post := blockPosteriors p.rate p.z b.infoBits blk.block x.2.1, poison := x.2.2.1,
              combined := x.2.2.2 })

/-- A value as read with bits of its word flipped: posteriors have 10 bits, check messages 8 (Table 05-1). -/
def flipValue (n : Nat) (v : Int) (flips : BitVec 10) : Int :=
  ((BitVec.ofInt n v) ^^^ (flips.setWidth n)).toInt

/-- What codeword `i` of a pass reads after `it` iterations. -/
def meetUpsets (bad : List DecUpset) (i it : Nat) (c : Codeword) : Codeword :=
  (bad.filter fun u => u.word == i && u.after == it).foldl (fun (a : Codeword) u =>
    if u.message then { a with msg := a.msg.setIfInBounds u.entry (flipValue 8 (a.msg.getD u.entry 0) u.flips) }
    else { a with post := a.post.setIfInBounds u.entry (flipValue 10 (a.post.getD u.entry 0) u.flips) }) c

/-- The 16-byte header of Table 05-4 and the packed hard decisions behind it. -/
def BlockResult.bytes (r : BlockResult) (h : BitVec 32) : List Byte :=
  natToBytes 4 h.toNat ++ natToBytes 2 r.block ++ natToBytes 1 r.iter
    ++ natToBytes 1 (r.zeroSyndrome.toNat + 2 * r.confirmed.toNat + 4 * r.crcUnconfirmed.toNat + 8 * r.poison.toNat
        + 16 * r.fallback.toNat + 32 * r.combined.toNat + 64 * r.takeover.toNat)
    ++ List.replicate 8 0 ++ packBits r.bits

/-- Where a result lies in the Peat of its cluster. [UNVERIFIED: log 250] -/
def resultAddr (g : Nat) (h : BitVec 32) (blk : Nat) : Nat := 0x1100000000 + g * 2 ^ 24 + Config.resultPlace g h.toNat blk % 16384 * 1024

/-- A result is written to Peat (R169). -/
def writeResult (g : Nat) (h : BitVec 32) (r : BlockResult) (s : State) : State :=
  s.onSys fun y => y.store (resultAddr g h r.block) (r.bytes h) false

/-- Decode codeword `i` of a pass (R165: independent of everything but posteriors, instance, grade and what its RAM words read as). -/
def decodeBlock (g i : Nat) (bad : List DecUpset) (fallback : Bool) (x : PassWord) (s : State) : State :=
  let blk := x.block
  match s.burst blk.handle with
  | none => s
  | some b =>
    let w := (s.decoder g).weightSet blk.weights
    let hit := bad.any fun u => u.word == i
    let keep (e : DecodeEnd) (t : State) : State := t.setDecoder g { t.decoder g with
      ram := (t.decoder g).ram.map fun y => if y.block == blk then { y with post := e.post.toList, msg := e.msg.toList } else y }
    if blk.block = 0xFFFF then
      let take (post : Array Int) : List Bool := (List.range 64).map fun i => hard (post.getD (64 + i) 0)
      let e := decodeWord w fallback 0 16
        (fun post => some (hcrc ((take post).take 48) == bitsNat ((take post).drop 48))) (meetUpsets bad i) x.post
      let r : BlockResult :=
      { block := 0xFFFF, bits := take e.post, iter := e.iter, zeroSyndrome := e.zeroSyndrome,
        confirmed := e.confirmed, crcUnconfirmed := e.crcUnconfirmed, poison := x.poison || hit,
        fallback := fallback, takeover := blk.takeover }
      (writeResult g blk.handle r (keep e (s.setBurst { b with header := some r, fallback := b.fallback || fallback }))).onSys
        fun y => y.countLocal Cls.DEC_ITER_LIMIT e.atLimit.toNat
    else
      let p := profileOf b.profile
      let n := carriedBits p.rate p.z b.infoBits blk.block
      let take (post : Array Int) : List Bool := (List.range n).map fun i => hard (post.getD i 0)
      let last := decide (blk.block + 1 = b.blockTotal)
      let e := decodeWord w fallback p.rate p.z
        (fun post => if last then some (crc24From (b.crcBefore blk.block) (take post) == 0) else none) (meetUpsets bad i) x.post
      let r : BlockResult :=
      { block := blk.block, bits := take e.post, iter := e.iter, zeroSyndrome := e.zeroSyndrome,
        confirmed := e.confirmed, crcUnconfirmed := e.crcUnconfirmed, poison := x.poison || hit, fallback := fallback,
        combined := x.combined, takeover := blk.takeover }
      let b1 := { b with results := b.results ++ [r], fallback := b.fallback || fallback, combined := b.combined || x.combined,
                         entered := if x.combined then mapSet (fun _ => []) blk.block x.llr b.entered else b.entered }
      (writeResult g blk.handle r (keep e (s.setBurst { b1 with crcReg := BitVec.ofNat 24 (b1.crcBefore (blk.block + 1)) }))).onSys
        fun y => y.countLocal Cls.DEC_ITER_LIMIT e.atLimit.toNat

/-- Iterations of a block's last result. -/
def lastIterations (b : Block) (s : State) : Nat :=
  match s.burst b.handle with
  | none => 0
  | some u =>
    if b.block = 0xFFFF then (match u.header with | some r => r.iter | none => 0)
    else (match u.results.find? fun r => r.block == b.block with | some r => r.iter | none => 0)

/-- End of a pass: every codeword's result is written, and the pass counts the most iterations of its codewords (R168, R169); uncorrectable
errors `bad` poison the results of their codewords alone (R170) and are recorded (R509), and `corrected` errors were corrected. -/
def passEnd (g : Nat) (bad : List DecUpset) (corrected : Nat) (s : State) : State :=
  match (s.decoder g).pass with
  | none => s
  | some p =>
    let word (blk : Block) : PassWord := ((s.decoder g).ram.find? fun x => x.block == blk).getD (loadWord blk s).2
    let s1 := (List.range p.blocks.length).foldl (fun a i => decodeBlock g i bad p.fallback (word (p.blocks.getD i {})) a)
      (s.setDecoder g { s.decoder g with pass := none })
    let most := (p.blocks.map fun b => lastIterations b s1).foldl max 0
    let hit := (List.range p.blocks.length).filter fun i => bad.any fun u => u.word == i
    let s2 := s1.setDecoder g { s1.decoder g with iterations := (s1.decoder g).iterations + most }
    (hit.foldl (fun a i => a.onSys fun y => y.fault Cls.MEM_UE UnitCode.graphDecoder 0 0 (g * 2 ^ 16 + (p.blocks.getD i {}).block)) s2).onSys
      fun y => y.countLocal Cls.CE_DEC corrected

/-- A free working decoder begins a pass: its codewords are loaded from their soft buffers (R159, R164). -/
def State.beginPass (s : State) (g : Nat) : State :=
  if s.sys.decoderFenced g || (s.decoder g).pass.isSome then s
  else
    let s1 := s.setDecoder g ((s.decoder g).startPass s.job.fallback)
    match (s1.decoder g).pass with
    | none => s1
    | some p =>
      let r := p.blocks.foldl (fun (a : State × List PassWord) blk =>
        let x := loadWord blk a.1
        (x.1, a.2 ++ [x.2])) (s1, [])
      r.1.setDecoder g { r.1.decoder g with ram := r.2 }

/-- Blocks waiting or in work anywhere. -/
def State.blocksWaiting (s : State) : Nat :=
  (s.decoders.map fun e => e.2.queue.length + e.2.deal.length + (match e.2.pass with | some _ => 1 | none => 0)).foldl (· + ·) 0

/-- Serve every decoder until no block waits; each round starts and ends a pass on each. -/
def drainDecoders : Nat → State → State
  | 0, s => s
  | n + 1, s =>
    if s.blocksWaiting = 0 then s
    else drainDecoders n ((s.decoders.map Prod.fst).foldl (fun a g => passEnd g [] 0 (a.beginPass g)) s)

/-- Run-time decoder fence (R179): the pass is abandoned, its codewords and the queue go to the decoder of R178 and join
its deal list; DEC_TAKEOVER once. [DESIGN CHOICE: log 255] -/
def fenceDecoder (g : Nat) (s : State) : State :=
  if s.sys.decoderFenced g then s
  else
    let d := s.decoder g
    let moved := (match d.pass with | some p => p.blocks | none => []) ++ d.queue ++ d.deal
    let s1 := (s.setDecoder g {}).onSys fun y =>
      ({ y with fences := { y.fences with decoder := putFence y.fences.decoder g 3 } }).fault Cls.DEC_TAKEOVER
        UnitCode.graphDecoder 0 0 g
    match s1.sys.decoderFor g with
    | none => s1
    | some k =>
      let e := s1.decoder k
      let joined : Decoder := { e with deal := e.deal ++ moved.map fun b => { b with takeover := true } }
      let full := !joined.handOver.deal.isEmpty
      let s2 := s1.setDecoder k { joined.handOver with fullCounted := e.fullCounted || full }
      if full && !e.fullCounted then s2.onSys fun y => y.countLocal Cls.DEC_QUEUE_FULL 1 else s2

/-! ### DECODE (R93, R103) -/

/-- Does a decoder hold a block: queued, in its deal list or in the pass it runs? -/
def Decoder.holds (d : Decoder) (h : BitVec 32) (blk : Nat) : Bool :=
  (d.queue ++ d.deal ++ (match d.pass with | some p => p.blocks | none => [])).any fun b => b.handle == h && b.block == blk

/-- Does any decoder hold it? [DEDUCED: log 77] -/
def State.blockHeld (s : State) (h : BitVec 32) (blk : Nat) : Bool := s.decoders.any fun e => e.2.holds h blk

/-- Queue the blocks of a burst whose last transmitted bit has arrived, that have no result and that no decoder holds (R103); a burst
without its context requests it for them (R422). [DEDUCED: log 77] -/
def queueDue (b : Burst) (s : State) : State :=
  let g := s.burstCluster b
  let dueAt (i : Nat) : Bool :=
    let p := profileOf b.profile
    decide (128 + blockOffset p.rate p.z b.infoBits i + transmittedBits p.rate p.z b.infoBits i ≤ b.bitsIn)
      && !(b.results.any fun r => r.block == i) && !s.blockHeld b.handle i
  if b.state == .synced then
    if 128 ≤ b.bitsIn && b.header.isNone && !s.blockHeld b.handle 0xFFFF then
      s.queueBlock g { handle := b.handle, block := 0xFFFF, weights := 12, z := 16 }
    else s
  else if b.state == .opened && !b.waiting then
    let p := profileOf b.profile
    (List.range b.blockTotal).foldl (fun a i =>
      if dueAt i then a.queueBlock g { handle := b.handle, block := i, weights := weightInstance p, z := p.z } else a) s
  else if b.state == .opened && (List.range b.blockTotal).any dueAt then s.requestSwapIn b
  else s

/-- The blocks due in the slot reach the queues as DECODE begins (R103). -/
def queueAllDue (s : State) : State := s.rx.bursts.foldl (fun a b => queueDue b a) s

/-- Start a pass on a free decoder (R164); in DECODE the blocks due are in the queues. [DEDUCED: log 77] -/
def passStart (g : Nat) (s : State) : State :=
  let s1 := if s.job.phase == .decode && !s.job.worked then queueAllDue s else s
  s1.beginPass g

/-- End of a burst's last header symbol, in 1/384 ns (R88). -/
def Burst.headerEnd (b : Burst) : Nat :=
  let n := if (classProfile b.airClass).four then 64 else 128
  b.syncTime + symbolsWithPilots n * symbolTime (channelWidth b.channel)

/-- The checks of R93 in order on a decoded header, and entry into OPEN. -/
def headerChecks (r : BlockResult) (b : Burst) (s0 : State) : State :=
  let drop0 (cls : Nat) : State := (s0.discardBurst b b.headerEnd).onSys fun y => y.count cls
  let v := bitsNat r.bits
  let sid := bitsOf v 44 20
  let s := s0.readRecord sid
  let drop (cls : Nat) : State := (s.discardBurst b b.headerEnd).onSys fun y => y.count cls
  let prof := bitsOf v 40 4
  if r.poison then drop0 Cls.HDR_POISON
  else if hcrc (r.bits.take 48) != bitsOf v 0 16 then drop0 Cls.HDR_CRC_FAIL
  else if bitsOf v 16 4 ≠ 1 then drop0 Cls.HDR_VERSION
  else if (profileOf prof).airClass ≠ b.airClass then drop0 Cls.PROFILE_MISMATCH
  else if !s.sys.registered sid then drop Cls.UNKNOWN_SESSION
  else if s.rx.bursts.any fun c => c.handle != b.handle && c.shortId.toNat == sid && c.state == .opened then
    drop Cls.SESSION_BUSY
  else if s.jobMode 1 1 = 1 && !s.job.batch.contains (BitVec.ofNat 20 sid) then drop Cls.NOT_IN_BATCH
  else
    let p := profileOf prof
    let len := bitsOf v 32 8 + 1
    let ds := uplinkDataSymbols p len
    let te := b.syncTime + symbolsWithPilots ds * symbolTime (channelWidth b.channel)
    let nbits := payloadBits p.rate p.z (8 * (len + 3))
    let gs := s.sys.freeGranules s.soft ((nbits + 1023) / 1024)
    let resident := (s.residentSlot sid).isSome && !flagAt s.sessions.lostSessions sid
    let b1 : Burst := { b with
      state := .opened, shortId := BitVec.ofNat 20 sid, profile := prof, lenM1 := len - 1,
      seq := BitVec.ofNat 8 (bitsOf v 24 8), repeatBit := v.testBit 23, ackReq := v.testBit 22,
      home := s.sys.homeNode sid, endTime := te, closeSlot := s.sys.slotOf (te / unitsPerNs), softBuf := gs,
      waiting := !resident }
    let m := markBurst b1 (ds - b1.dataHeaderSymbols) { s with soft := s.soft.take gs, sys := s.sys.clearGranules gs }
    let b1 := m.2
    let s1 := m.1.setBurst b1
    let mismatch := b1.repeatBit && s1.soft.retained.any fun q =>
      q.shortId == b1.shortId && q.seq == b1.seq && (q.profile != b1.profile || q.lenM1 != b1.lenM1)
    let s2 := if mismatch then s1.onSys fun y => y.countLocal Cls.SOFT_MISMATCH 1 else s1
    if resident then s2.settleCtx b1.shortId
    else s2.requestSwapIn b1

/-- Does a burst start before another? -/
def Burst.startsBefore (a b : Burst) : Bool :=
  decide (a.syncTime + 60 * symbolTime (channelWidth b.channel) ≤ b.syncTime + 60 * symbolTime (channelWidth a.channel))

/-- All decoded headers of bursts still SYNCED, in order of their start (R93). -/
def openBursts (s : State) : State :=
  (sortBy Burst.startsBefore s.rx.bursts).foldl (fun a b =>
    match b.header with
    | some r => if b.state == .synced then headerChecks r b a else a
    | none => a) s

/-- Payload bits and CRC of a burst in block order. -/
def Burst.payloadBits (b : Burst) : List Bool :=
  (List.range b.blockTotal).flatMap fun i =>
    match b.results.find? fun r => r.block == i with
    | some r => r.bits
    | none => []

/-- Delivered bytes: payload and its three CRC bytes (R449). -/
def Burst.bytes (b : Burst) : List Byte := packBits b.payloadBits

def Burst.complete (b : Burst) : Bool :=
  (List.range b.blockTotal).all fun i => b.results.any fun r => r.block == i

/-- The contribution a non-home node forwards (R104): payload bytes after a clean CRC pass, else LLRs with poisoned ones
erased. -/
def contributionOf (s : State) (b : Burst) : Contribution :=
  let ok := b.crcOk && !b.poisoned
  let p := profileOf b.profile
  { kind := if ok then 1 else 0, node := s.sys.node, shortId := b.shortId, profile := b.profile, seq := b.seq,
    lenM1 := b.lenM1, ackReq := b.ackReq, repeatBit := b.repeatBit, channel := b.channel,
    start := (b.syncTime - 60 * symbolTime (channelWidth b.channel)) / unitsPerNs, finish := b.endTime / unitsPerNs,
    rssi := b.rssi, snr := b.snr,
    llrs := if ok then [] else
      (readSoft b.softBuf s.sys 0 (payloadBits p.rate p.z b.infoBits)).map fun e => if e.2 then 0 else e.1,
    bytes := if ok then b.bytes else [] }

/-- What a closed burst has taught: the estimates of its session's resident context, CFO to GAIN of Table 14-2, are free values; those of a
cold context are discarded (R420). [DESIGN CHOICE: log 278] -/
def learnEstimates (b : Burst) (s : State) : State :=
  match (if b.cold then none else s.residentSlot b.shortId.toNat) with
  | some k =>
    let r := freeBytes 80 s.sys
    s.onSys fun _ => r.2.store (contextBase k + 0x10) r.1 false
  | none => s

/-- A burst closes (R73, R103, R104): CRC-24 over the whole payload; a non-home node forwards and frees it. -/
def closeBurst (b : Burst) (s : State) : State :=
  let ok := decide (crc24From crc24Init b.payloadBits = 0)
  let b1 := { b with state := .closed, crcOk := ok, poisoned := b.results.any fun r => r.poison, checked := true }
  let t := symbolTime (channelWidth b.channel)
  let ramp := natPut s.rx.rampEnd b.channel.toNat (b.endTime + 4 * t)
  let s1 := { s with rx := { s.rx with rampEnd := ramp }, job := { s.job with closed := s.job.closed + 1 } }
  let s2 := (learnEstimates b ((recordCommit b1 ok b.payloadBits b.bytes s1).setBurst b1)).onSys fun y =>
    y.writeRecord b.shortId.toNat 0x220 (natToBytes 8 (b.endTime / unitsPerNs))
  if b1.home = s.sys.node then s2
  else
    let c := contributionOf s2 b1
    (s2.sendContribution b1.home c).discardBurst { b1 with state := .closed } b1.endTime

/-- Bursts whose closing slot has come and whose blocks are all decoded (R73). -/
def closeBursts (s : State) : State :=
  (s.rx.bursts.filter fun b => b.state == .opened && decide (b.closeSlot ≤ s.job.slot) && b.complete).foldl
    (fun a b => closeBurst b a) s

/-- Payload symbols that came in the slot whose header opens the burst are demapped at once, so that their blocks decode in the slot of
their last bit (R73, R94, R103). [DEDUCED: log 249] -/
def recvOpened (before : List Burst) (s : State) : State :=
  (before.filter fun b => b.state == .synced).foldl (fun a b =>
    match a.burst b.handle with
    | some c => if c.state == .opened && !c.waiting then recvBurst b.handle a else a
    | none => a) s

/-- The DECODE phase: headers and blocks due, then the payload of the bursts that open. -/
def decodePhase (s : State) : State :=
  if s.job.phase == .decode && !s.job.worked then
    let s1 := drainDecoders 100000 (queueAllDue s)
    let s2 := drainDecoders 100000 (queueAllDue (recvOpened s1.rx.bursts (openBursts s1)))
    let s3 := closeBursts s2
    { s3 with job := { s3.job with worked := true },
              decoders := s3.decoders.map fun e => (e.1, { e.2 with fullCounted := false }) }
  else s

end Sys2Proof.Machine
end

