-- ==== Sys2Proof/Machine/Separate.lean ====
section
/-! DEFINITION. Separation of colliding bursts and the RECV phase: the collision store, the pre-decode, cancellation and round 2 (R99 to
R102, R113). Round 1 is the separated demapping of Demod.lean. -/

namespace Sys2Proof.Machine

/-! ### The collision store (R101) -/

/-- Bytes of the collision store: two for each INT8 sample. -/
def State.storeBytes (s : State) : Nat := (s.rx.store.map fun e => 2 * e.2.length).foldl (· + ·) 0

/-- Samples of a collided channel that the store holds for a stream. -/
def State.stored (s : State) (c : Channel) (st : Nat) : List Sample := mapGet (fun _ => []) (c.id.toNat * 32 + st) s.rx.store

/-- Scaled samples of the slot on a stream. -/
def State.slotScaled (s : State) (c : Channel) (st : Nat) : List Sample :=
  let ks := s.slotSamples c.id
  (mapGet (fun _ => []) (c.id.toNat * 32 + st) s.rx.scaled).filter fun x => ks.contains x.k

/-- Has the store no room for the slot's samples of a channel: 8,192 symbols a channel, 256 MiB in all? -/
def State.storeFull (s : State) (c : Channel) : Bool :=
  let new := (c.group.map fun st => (s.slotScaled c st).length).foldl (· + ·) 0
  (c.group.any fun st => decide (16384 < (s.stored c st).length + (s.slotScaled c st).length)) || decide (2 ^ 28 < s.storeBytes + 2 * new)

/-- A collided channel's samples of the slot enter the store; where it is full they do not, and SEP_STORE_FULL counts. -/
def storeChannel (a : State × List (BitVec 16)) (c : Channel) : State × List (BitVec 16) :=
  let s := a.1
  if s.storeFull c then (s.onSys fun y => y.count Cls.SEP_STORE_FULL, a.2 ++ [c.id])
  else
    let store := c.group.foldl (fun m st => mapSet (fun _ => []) (c.id.toNat * 32 + st) (s.stored c st ++ s.slotScaled c st) m) s.rx.store
    ({ s with rx := { s.rx with store := store } }, a.2)

/-- Channels no longer collided leave the store, the collided ones' samples enter it; answers the channels it had no room for. -/
def collisionStore (s : State) : State × List (BitVec 16) :=
  let cs := s.job.channels.filter fun c => s.collided c.id
  cs.foldl storeChannel
    ({ s with rx := { s.rx with store := mapFilter (fun k => cs.any fun c => c.id.toNat == k / 32) s.rx.store } }, [])

/-! ### Cancellation (R99 step 3, R100) -/

/-- A cancelled block: its burst, first data symbol, number of data symbols, and its symbol values with the pilots among them. -/
structure Cancelled where
  burst : Burst
  first : Nat
  count : Nat
  values : List Int

/-- A decoded block re-encoded, scrambled and mapped (R57, R60, R99). -/
def cancelledBlock (b : Burst) (r : BlockResult) : Cancelled :=
  let p := profileOf b.profile
  let o := blockOffset p.rate p.z b.infoBits r.block
  let k := blockBits p.rate p.z
  let word := r.bits ++ (ldpcEncode p.rate p.z (r.bits ++ List.replicate (k - r.bits.length) false)).drop k
  let bits := xorBits word ((scramblerBits (o + word.length) (sessionSeed b.shortId.toNat)).drop o)
  let first := (128 + o) / b.bitsPerSymbol
  { burst := b, first := first, count := word.length / b.bitsPerSymbol, values := dataSymbolValues p.four first bits }

/-- Start and end of a cancelled block's symbols, in 1/384 ns. -/
def Cancelled.span (x : Cancelled) : Nat × Nat :=
  (x.burst.symbolEnd x.first - symbolTime (channelWidth x.burst.channel), x.burst.symbolEnd (x.first + x.count - 1))

/-- Samples with the cancelled blocks' waveforms, as the bursts' estimated channels give them, subtracted; what is `apart` from the spans stays. [UNVERIFIED: log 243] -/
def State.residual (s : State) (xs : List Cancelled) (id : BitVec 16) : SampleSource := fun st k =>
  (s.heldSample id st k).map fun v =>
    let t := k * halfSymbol id
    xs.foldl (fun a x =>
      let sp := x.span
      if x.burst.channel == id && decide (sp.1 ≤ t ∧ t < sp.2) then
        let j := (t - sp.1) / halfSymbol id
        let p := profileOf x.burst.profile
        Config.cancelSample (s.estFeatures (s.heldSample id) x.burst st (x.burst.arrived t))
          [phasor p x.values j, phasor p x.values (j + 1)] ((t - sp.1) % halfSymbol id * 8 / halfSymbol id) x.burst.cfo k a
      else a) v

/-! ### Round 2 (R99 step 4) -/

/-- The LLR that round 2 gives coded bit `k` of a burst: descrambled (R96) and limited. -/
def round2Llr (b : Burst) (k : Nat) (v : Int) : Int :=
  let bit := if k < 128 then (scramblerBits 128 headerSeed).getD k false
    else (scramblerBits (k - 127) (sessionSeed b.shortId.toNat)).getD (k - 128) false
  limitTo (if bit then -v else v) 127

/-- Replace LLRs of a burst by coded bit, each keeping its poison. -/
def replaceLlrs (news : List (Nat × Int)) (b : Burst) (s : State) : State :=
  let hb :=
  { b with
    headerLlr := (List.range b.headerLlr.length).map fun k =>
    match news.find? fun e => e.1 == k with
    | some e => (round2Llr b k e.2, (b.headerLlr.getD k (0, false)).2)
    | none => b.headerLlr.getD k (0, false) }
  (s.setBurst hb).onSys fun y => news.foldl (fun z e =>
    if 128 ≤ e.1 then
      writeSoft b.softBuf z (e.1 - 128)
        [(round2Llr b e.1 e.2, (readSoft b.softBuf z (e.1 - 128) 1).any Prod.snd)]
    else z) y

/-- Processed data symbols of a burst that overlap a cancelled span, from symbol `from_` on; erasures of R381 stay. -/
def State.redoSymbols (s : State) (xs : List Cancelled) (b : Burst) (from_ : Nat) : List Nat :=
  let t := symbolTime (channelWidth b.channel)
  (List.range b.symbols).filter fun j =>
    decide (from_ ≤ j) && !s.erased b j && xs.any fun x =>
      x.burst.channel == b.channel && decide (x.span.1 < b.symbolEnd j ∧ b.symbolEnd j < x.span.2 + t)

/-- RECV of a remaining burst on the residual (R99 step 4). -/
def redoBurst (xs : List Cancelled) (s : State) (b : Burst) (js : List Nat) : State :=
  let c := (s.channelCfg b.channel).getD { id := b.channel, airClass := b.airClass }
  let src := s.residual xs b.channel
  let m := b.bitsPerSymbol
  replaceLlrs (js.flatMap fun j =>
    let l := (s.demapFull src false b c j).1
    (List.range m).map fun i => (m * j + i, l.getD i 0)) b s

/-- Pre-decode, cancellation and round 2 (R99 steps 2 to 4): the blocks of the highest-ranked bursts that the pre-decode brings to a zero
syndrome are cancelled; the remaining bursts are processed again where something was subtracted, in the slot's own span only on a channel of
`full` or past the cap (R101). -/
def separation (full : List (BitVec 16)) (s : State) : State :=
  if s.job.fallback then s
  else
    let tops := s.rx.bursts.filter fun b => b.state == .opened && s.collided b.channel && s.highest b
    let s1 := drainDecoders 100000 (tops.foldl (fun a b => queueDue b a) s)
    let xs := tops.flatMap fun t =>
      match s1.burst t.handle with
      | some b => (b.results.filter fun r => r.zeroSyndrome && !(t.results.any fun q => q.block == r.block)).map (cancelledBlock b)
      | none => []
    let rest := s1.rx.bursts.filter fun b => !(tops.any fun t => t.handle == b.handle) && (b.state == .synced || b.state == .opened)
      && xs.any fun x => x.burst.channel == b.channel
    let slotFrom (b : Burst) : Nat := b.arrived (s1.slotStart * unitsPerNs)
    let whole (b : Burst) : List Nat := s1.redoSymbols xs b (if full.contains b.channel then slotFrom b else 0)
    let capped := decide (65536 < (rest.map fun b => (whole b).length).foldl (· + ·) 0)
    let s2 := if capped then s1.onSys fun y => y.count Cls.SEP_REPROCESS_CAP else s1
    rest.foldl (fun a b => match a.burst b.handle with
      | some c => redoBurst xs a c (if capped then s1.redoSymbols xs b (slotFrom b) else whole b)
      | none => a) s2

/-- The RECV phase: every burst in SYNCED and OPEN, then the separation rounds. [DEDUCED: log 214] -/
def recvPhase (ins : List RecvBurst) (s : State) : State :=
  if s.job.phase == .recv && !s.job.worked then
    let k := collisionStore (requestAgain s)
    let s1 := (k.1.rx.bursts.map fun b => b.handle).foldl (recvWith ins) k.1
    let s2 := separation k.2 s1
    { s2 with job := { s2.job with worked := true } }
  else s

end Sys2Proof.Machine
end

