-- ==== Sys2Proof/Machine/Deliver.lean ====
section
/-! DEFINITION. Delivery, acknowledgement decisions and cross-site combining (R104 to R112, R173, R449, R450): the DELIVER
phase and the combining pass. -/

namespace Sys2Proof.Machine

/-! ### Uplink records (R449) -/

/-- What a completion record says of a burst beside its header fields. -/
structure Verdict where
  crcOk : Bool := false
  poison : Bool := false
  fallback : Bool := false
  cold : Bool := false
  diversity : Nat := 1
  combined : Bool := false
  deriving DecidableEq, Repr

def Verdict.valid (v : Verdict) : Bool := v.crcOk && !v.poison

/-- Continuation slots of a record of payload length L (R449). -/
def continuationSlots (len : Nat) : Nat := if len ≤ 64 then (len + 3 + 30) / 31 else 0

/-- Start of a burst in air-time ns: 60 symbols before the end of its sync word. -/
def Burst.startNs (b : Burst) : Nat := (b.syncTime - 60 * symbolTime (channelWidth b.channel)) / unitsPerNs

/-- The header slot of Table 15-10 without PHASE, SEQNO and BUF. -/
def uplinkHeader (b : Burst) (v : Verdict) : Record :=
  let len := b.lenM1 + 1
  mkRecord [
    (0, 1, 4 * v.valid.toNat + 8 * v.crcOk.toNat + 16 * v.poison.toNat + 32 * v.fallback.toNat + 64 * v.cold.toNat
        + 128 * (decide (len ≤ 64)).toNat),
    (1, 1, v.diversity + 8 * v.combined.toNat + 16 * b.repeatBit.toNat + 32 * continuationSlots len),
    (4, 4, b.shortId.toNat + b.profile * 2 ^ 20 + b.seq.toNat * 2 ^ 24),
    (8, 8, b.startNs), (16, 2, b.channel.toNat), (18, 1, b.lenM1),
    (19, 1, ofSigned 8 (satSigned 8 b.snr)), (20, 2, ofSigned 16 (satSigned 16 b.rssi)),
    (22, 2, ofSigned 16 (satSigned 16 b.cfo))]

/-- Write a record to a ULQ ring, or `none` when its slots are not all free (R450, R109). -/
def Sys.writeUplink (s : Sys) (ring : Nat) (header : Record) (delivered : List Byte) : Option Sys :=
  let h := s.ring ring
  let n := continuationSlots (delivered.length - 3)
  if h.enabled && decide (n + 1 ≤ h.free) then
    let inline := decide (delivered.length - 3 ≤ 64)
    let buf := h.bufBase + 512 * h.modPos
    let s1 := if inline then
        (List.range n).foldl (fun (a : Sys) i =>
          let body := (delivered.drop (31 * i)).take 31
          let slot := BitVec.ofNat 8 (2 + (h.phaseAt (i + 1)).toNat) :: (body ++ List.replicate (31 - body.length) 0)
          a.pokeN (h.slotAddr (h.modPos + 1 + i)) slot) s
      else s.pokeN (hostBase + buf) delivered
    let full := header ||| mkRecord [(0, 1, h.phase.toNat), (2, 2, h.seqno.toNat), (24, 8, if inline then 0 else buf)]
    let s2 := s1.pokeN (h.slotAddr h.modPos) (natToBytes 32 full.toNat)
    some ((s2.setRing ring { h.advance (n + 1) with seqno := h.seqno + 1 }).signalRing ring false)
  else none

/-! ### Downlink occupancy and acknowledgements (R70, R71, R110, R111) -/

/-- Air time of a downlink frame in ns, ramp-down included, rounded up (R66). [DEDUCED: log 92] -/
def frameNs (prof len : Nat) : Nat :=
  let p := profileOf prof
  (downlinkSymbols (downlinkDataSymbols p len) * symbolTime p.width + unitsPerNs - 1) / unitsPerNs

def HeldFrame.finish (f : HeldFrame) : Nat := f.start + frameNs f.profile (f.lenM1 + 1)
/-- See the log. [DEDUCED: log 92] -/
def HandedFrame.finish (f : HandedFrame) : Nat := f.desc.start + frameNs f.desc.profile (f.desc.lenM1 + 1)

/-- Is a channel's downlink occupied at an instant by a held, handed or passed frame (R71, R444)? [DEDUCED: log 89, 271] -/
def State.occupied (s : State) (ch : BitVec 16) (t : Nat) : Bool :=
  (s.downlink.held.any fun f => (!f.anchored || f.released) && f.channel == ch && decide (f.start ≤ t ∧ t < f.finish))
  || (s.downlink.handed.any fun f => f.desc.channel == ch && decide (f.desc.start ≤ t ∧ t < f.finish))
  || (s.sluice.passed.any fun f => f.channel == ch && decide (f.start ≤ t ∧ t < f.finish))

/-- Anchored frames held for a session (R445). -/
def State.anchoredCount (s : State) (sid : BitVec 20) : Nat :=
  (s.downlink.held.filter fun f => f.anchored && !f.released && f.shortId == sid).length

def sluiceDesc (ch : BitVec 16) (prof lenM1 start : Nat) : SluiceDesc :=
  { channel := ch, firstBin := BitVec.ofNat 14 (channelFirst ch), width := channelWidth ch, profile := prof,
    lenM1 := lenM1, start := start }

/-- The acknowledgement frame of a burst (R69, R111). -/
def ackFrame (s : State) (b : Burst) : HandedFrame :=
  let n := s.anchoredCount b.shortId
  let body : List Byte := [1, BitVec.ofNat 8 (min n 255)]
  { shortId := b.shortId, seq := b.seq, more := decide (0 < n),
    desc := sluiceDesc b.channel b.profile 1 ((b.closeSlot + 2) * s.sys.slotLen),
    body := body ++ natToBytes 4 (frameCrc32 b.shortId.toNat body) }

/-- The samples that the job side builds of a frame: header with VERSION, MORE, COMMAND and HCRC, then its body (R52, R66, R68, R111). -/
def HandedFrame.samples (f : HandedFrame) : List (Int × Int) :=
  emittedSamples f.desc.channel.toNat f.desc.start f.shortId.toNat f.desc.profile f.desc.lenM1 f.seq.toNat f.more f.command f.body

/-- Is an acknowledgement decision of this slot still open: air time before D, slot not suppressed (R110, R380), and the
burst's closing slot not one that was skipped (R381)? -/
def State.decisionOpen (s : State) (b : Burst) : Bool :=
  decide (s.sys.now < s.slotEnd + s.job.deadline * 1000) && !s.job.deadlinePassed && b.closeSlot == s.job.slot

/-- Of two responses for one channel and slot start, the burst that ended earlier goes first, then the lower short ID
(R71). -/
def ackBefore (a b : Burst) : Bool :=
  decide (a.endTime < b.endTime) || (a.endTime == b.endTime && decide (a.shortId.toNat < b.shortId.toNat))

/-- REPLAY_DIVERGED of a kind (R574). [DEDUCED: log 63] -/
def Sys.replayDiverged (y : Sys) (slot kind pos : Nat) : Sys :=
  y.event Cls.REPLAY_DIVERGED [(2, 6, slot % 2 ^ 48), (8, 1, kind), (12, 4, pos)]

/-- Order of acknowledgement decisions: by channel and short ID with DETERMINISTIC (R565), else as they arise. -/
def ackOrder (det : Bool) (cands : List Burst) : List Burst :=
  if det then
    sortBy (fun a b => decide (a.channel.toNat < b.channel.toNat)
      || (a.channel == b.channel && decide (a.shortId.toNat ≤ b.shortId.toNat))) cands
  else cands

/-- See the log. [DEDUCED: log 68] -/
def State.withhold (s : State) : State := { s with job := { s.job with withheld := s.job.withheld + 1 } }

/-- Decide the acknowledgements of one pass over its candidates, each already meeting conditions 1 to 3 of R110. [DEDUCED: log 68, 271] -/
def decideAcks (cands : List Burst) (s : State) : State :=
  (ackOrder (s.deterministic) cands).foldl (fun a b =>
    if a.job.suppressed || (match a.job.ackLimit with | some l => decide (l ≤ a.job.acked) | none => false) then a.withhold
    else if !a.decisionOpen b then
      (if a.job.replayActive then a.onSys fun y => y.replayDiverged a.job.slot 1 (a.job.replayPos - 1) else a).withhold
    else
      let start := (b.closeSlot + 2) * s.sys.slotLen
      let rival := cands.any fun c => c.channel == b.channel && c.closeSlot == b.closeSlot && ackBefore c b
      if rival || s.occupied b.channel start || a.downlink.answered.contains (b.channel, start) then a.onSys fun y => y.count Cls.ACK_BUSY
      else if (a.channelCfg b.channel).isNone then a
      else
        State.noteDownlink b.shortId (frameNs b.profile 2) { a with
          downlink := { a.downlink with
            handed := a.downlink.handed ++ [ackFrame a b], answered := a.downlink.answered ++ [(b.channel, start)] },
          job := { a.job with acked := a.job.acked + 1 } }) s

/-! ### Leaving service -/

/-- Retain the soft buffer of a failed or poisoned burst (R173): its LLRs as they entered the last decode, at most one
per session, evicting the oldest when the pool is full (R176). -/
def retain (b : Burst) (s : State) : State :=
  let p := profileOf b.profile
  let s1 := s.freeRetained b.shortId
  let s2 := s1.evictFor b.softBuf.length 524288
  let y := b.entered.foldl (fun (y : Sys) e =>
    writeSoft b.softBuf y (blockOffset p.rate p.z b.infoBits e.1) (e.2.map fun v => (v, false))) s2.sys
  let r : Retained :=
    { shortId := b.shortId, seq := b.seq, profile := b.profile, lenM1 := b.lenM1, granules := b.softBuf,
      expiry := b.closeSlot + 1 + s.job.softHold * 1000000000 / s.sys.slotLen }
  ({ s2 with sys := y, soft := { s2.soft with retained := s2.soft.retained ++ [r] } }).writeRetained b.shortId (some r)

/-- The cold context of a burst that leaves service is free again (R420). -/
def State.freeCold (s : State) (b : Burst) : State :=
  let g := sliceOf s.job.qset b.shortId.toNat
  if b.cold then
    { s with sessions := { s.sessions with coldInUse := natPut s.sessions.coldInUse g (natAt s.sessions.coldInUse g - 1) } }
  else s

/-- A burst whose record is written or held leaves the list; its buffer is retained or freed, its context settles. -/
def finishBurst (b : Burst) (v : Verdict) (delivered : List Byte) (s : State) : State :=
  let s1 := (s.dropBurst b.handle).freeCold b
  let s2 := s1.onSys fun y =>
    (y.writeRecord b.shortId.toNat 0x220 (natToBytes 8 (b.endTime / unitsPerNs))).bumpRecord b.shortId.toNat
      (if v.valid then 0x228 else 0x22C)
  let s2 := commitCombined b v.valid delivered s2
  let s3 := if v.valid then { s2 with soft := s2.soft.release b.softBuf }.freeRetained b.shortId else retain b s2
  s3.settleCtx b.shortId

/-- Write LAST_SEQ through to record and context (R108, R415); a record of the session that R109 dropped is of the past. -/
def State.setLastSeq (s : State) (sid : BitVec 20) (seq : Byte) : State :=
  let s0 : State := { s with rx := { s.rx with dropped := s.rx.dropped.filter fun e => e.1 != sid } }
  let s1 := s0.onSys fun y => y.writeRecord sid.toNat 0x200 [seq, 1]
  match s1.residentSlot sid.toNat with
  | some k => s1.onSys fun y => (y.setCtx k 0x0A 1 seq.toNat).setCtx k 0x0B 1 1
  | none => s1

/-- The active module tells its partner the SEQ of a valid burst it delivers (R483). -/
def State.sendSeqSync (s : State) (sid : BitVec 20) (seq : Byte) : State :=
  if s.sys.pairOn && s.net.role == 2 && s.reachable s.sys.partner then
    s.sendFlow s.sys.partner { kind := 0x11, body := bytesBE 4 (sid.toNat + seq.toNat * 2 ^ 24) }
  else s

/-- Deliver one closed burst (R107 to R109): the answer says whether conditions 2 and 3 of R110 hold for it. -/
def deliverBurst (b : Burst) (v : Verdict) (delivered : List Byte) (s0 : State) : State × Bool :=
  let sid := b.shortId.toNat
  let s := s0.readRecord sid
  if v.valid && s.sys.lastSeq sid == some b.seq.toNat then
    let held := (s.rx.held.any fun h => h.shortId == b.shortId && h.seq == b.seq) || s.rx.dropped.contains (b.shortId, b.seq)
    let s1 := commitCombined b true delivered { ((s.dropBurst b.handle).freeCold b) with soft := s.soft.release b.softBuf }
    ((s1.onSys fun y => y.count Cls.DUP_SUPPRESSED).settleCtx b.shortId, !held)
  else
    let ring := 8 + s.sys.ulRing sid
    let header := uplinkHeader b v
    let s1 := if v.valid then s.setLastSeq b.shortId b.seq else s
    let s2 := if v.valid then s1.sendSeqSync b.shortId b.seq else s1
    match s2.sys.writeUplink ring header delivered with
    | some y => (finishBurst b v delivered { s2 with sys := y }, v.valid)
    | none =>
      let rec' : HeldRecord :=
        { ring := ring, shortId := b.shortId, seq := b.seq, closeSlot := b.closeSlot, header := header,
          delivered := delivered }
      let s3 := { s2 with rx := { s2.rx with held := s2.rx.held ++ [rec'] }, sys := s2.sys.count Cls.UL_RING_FULL }
      (finishBurst b v delivered s3, false)

def Burst.verdict (b : Burst) : Verdict :=
  { crcOk := b.crcOk, poison := b.poisoned, fallback := b.fallback, cold := b.cold, combined := b.combined }

/-- One retry of a held record; the fourth slot's failure drops it with UL_DROP (R109). -/
def retryHeld (h : HeldRecord) (s : State) : State :=
  match s.sys.writeUplink h.ring h.header h.delivered with
  | some y => { s with sys := y }.settleCtx h.shortId
  | none =>
    let s1 := s.onSys fun y => y.count Cls.UL_RING_FULL
    if 4 ≤ h.attempts then
      (({ s1 with rx := { s1.rx with dropped := s1.rx.dropped ++ [(h.shortId, h.seq)] } } : State).onSys fun y => y.event Cls.UL_DROP [(2, 4, h.shortId.toNat), (6, 1, h.seq.toNat), (7, 1, h.ring - 8),
        (8, 6, h.closeSlot % 2 ^ 48)]).settleCtx h.shortId
    else { s1 with rx := { s1.rx with held := s1.rx.held ++ [{ h with attempts := h.attempts + 1 }] } }

/-- What the home node keeps of a burst of its own reception that has left service (R105). -/
def Burst.trace (b : Burst) : SeenBurst :=
  { shortId := b.shortId, seq := b.seq, start := b.startNs, profile := b.profile, lenM1 := b.lenM1 }

/-- The DELIVER phase: held records first, then each closed burst that passed its CRC, then the acknowledgements. -/
def deliverPhase (s : State) : State :=
  if s.job.phase == .deliver && !s.job.worked then
    let s0 := s.rx.held.foldl (fun a h => retryHeld h a) { s with rx := { s.rx with held := [] } }
    let due := s0.rx.bursts.filter fun b => b.state == .closed && b.crcOk && !b.delivered
    let r := due.foldl (fun (a : State × List Burst) b =>
      let d := deliverBurst b b.verdict b.bytes a.1
      (d.1, if d.2 && b.ackReq then a.2 ++ [b] else a.2)) (s0, [])
    let s1 := decideAcks r.2 r.1
    { s1 with
      job := { s1.job with worked := true },
      rx := { s1.rx with seen := s1.rx.seen ++ due.map Burst.trace } }
  else s

/-! ### Contributions and the combining pass (R105, R106) -/

/-- Is a contribution of this burst: same short ID and SEQ, starts within 2T + 10 µs (R105)? -/
def sameBurst (sid : BitVec 20) (seq : Byte) (start t : Nat) (c : Contribution) : Bool :=
  c.shortId == sid && c.seq == seq &&
    decide (c.start ≤ start + (2 * t / unitsPerNs + 10000) ∧ start ≤ c.start + (2 * t / unitsPerNs + 10000))

/-- Does a contribution go before another of the burst: higher SNR, then the lower source node ID (R106, R565)? -/
def Contribution.above (a b : Contribution) : Bool := decide (b.snr < a.snr) || (a.snr == b.snr && decide (a.node < b.node))

/-- Keep the three contributions with the highest SNR, in order of arrival (R106). -/
def bestThree (cs : List Contribution) : List Contribution :=
  if cs.length ≤ 3 then cs
  else cs.filter fun c => decide (((cs.filter fun d => d.above c).length) < 3)

/-- Decode a combined LLR list of a whole payload (R106 step 2). -/
def decodePayload (s : State) (b : Burst) (llrs : List Int) : List Bool × Nat × Nat :=
  let p := profileOf b.profile
  decodeBlocks (s.weights (weightInstance p)) s.job.fallback p b.infoBits llrs

/-- Sum LLR lists bit by bit in a 10-bit accumulator, saturated to ±127 (R106). -/
def sumAll (n : Nat) (ls : List (List Int)) : List Int :=
  (List.range n).map fun i => limitTo (limitTo ((ls.map fun l => l.getD i 0).foldl (· + ·) 0) 511) 127

/-- Key of a count of kind `kind` on cluster `g`. -/
def countKey (g kind : Nat) : Nat := g * 16 + kind

/-- Add to a count of the combining pass (Table 04-10). -/
def State.addComb (s : State) (g kind n : Nat) : State :=
  { s with
    job := { s.job with combCounts := natPut s.job.combCounts (countKey g kind) (natAt s.job.combCounts (countKey g kind) + n) } }

/-- Does a burst with these contributions go through the decoder (R106 step 2)? [DEDUCED: log 70] -/
def needsDecode (all : List Contribution) : Bool :=
  let cs := bestThree all
  (cs.any fun c => c.kind == 0) && !(cs.any fun c => c.kind == 1 && crc24 c.bytes == 0)

/-- Resolve one burst, its own reception first when there is one (`own`), from its contributions (R106). -/
def resolveBurst (own : Bool) (b : Burst) (all : List Contribution) (s : State) : State × Option Burst :=
  let cs := bestThree all
  let s0 := s.onSys fun y => y.countN Cls.COMBINE_OVERFLOW (all.length - cs.length)
  let ones := cs.filter fun c => c.kind == 1
  let good := ones.find? fun c => crc24 c.bytes == 0
  let bad := (ones.takeWhile fun c => crc24 c.bytes != 0).length
  let s1 := s0.onSys fun y => y.countN Cls.COMBINE_BAD bad
  let fromC (c : Contribution) : Burst :=
    if own then b else { b with ackReq := c.ackReq, repeatBit := c.repeatBit, channel := c.channel }
  match good with
  | some c =>
    let b1 := fromC c
    let r := deliverBurst b1 { b.verdict with crcOk := true, poison := false, diversity := 1, combined := false } c.bytes s1
    (r.1, if r.2 && b1.ackReq then some b1 else none)
  | none =>
    let zeros := cs.filter fun c => c.kind == 0
    let p := profileOf b.profile
    let n := payloadBits p.rate p.z b.infoBits
    if zeros.isEmpty then
      if own then
        let r := deliverBurst b b.verdict b.bytes s1
        (r.1, none)
      else ({ s1 with soft := s1.soft.release b.softBuf }, none)
    else
      let mine := if own then [(readSoft b.softBuf s1.sys 0 n).map Prod.fst] else []
      let sum := sumAll n (mine ++ zeros.map fun c => c.llrs)
      let d := decodePayload s1 b sum
      let ok := decide (crc24From crc24Init d.1 = 0)
      let b1 :=
      { (fromC (zeros.headD {})) with
        entered := (List.range b.blockTotal).foldl (fun m i =>
          mapSet (fun _ => []) i ((sum.drop (blockOffset p.rate p.z b.infoBits i)).take
            (transmittedBits p.rate p.z b.infoBits i)) m) [] }
      let v : Verdict := { b.verdict with
        crcOk := ok, poison := own && b.poisoned, fallback := b.fallback || s.job.fallback,
        diversity := zeros.length + own.toNat }
      let s2 := (s1.onSys fun y => y.countLocal Cls.DEC_ITER_LIMIT d.2.1).addComb (s1.homeCluster b1.channel) 7 d.2.2
      let r := deliverBurst b1 v (packBits d.1) s2
      (r.1, if r.2 && b1.ackReq then some b1 else none)

/-- Contributions of bursts the node did not receive, as bursts: the first to arrive fixes PROFILE and LEN_M1 (R105). -/
def burstOf (s : State) (c : Contribution) : Burst :=
  let p := profileOf c.profile
  { channel := c.channel, airClass := p.airClass, state := .closed, shortId := c.shortId, profile := c.profile, seq := c.seq,
    lenM1 := c.lenM1, repeatBit := c.repeatBit, ackReq := c.ackReq, home := s.sys.node,
    syncTime := c.start * unitsPerNs + 60 * symbolTime p.width, endTime := c.finish * unitsPerNs,
    closeSlot := s.sys.slotOf c.finish, rssi := c.rssi, snr := c.snr, handle := 0 }

/-- Group the contributions of unreceived bursts and resolve each group. -/
def resolveUnreceived : Nat → List Contribution → State × List Burst → State × List Burst
  | 0, _, a => a
  | _, [], a => a
  | n + 1, c :: rest, a =>
    let t := symbolTime (profileOf c.profile).width
    let mates := rest.filter fun d => sameBurst c.shortId c.seq c.start t d
    let others := rest.filter fun d => !sameBurst c.shortId c.seq c.start t d
    let b := burstOf a.1 c
    if a.1.sys.registered c.shortId.toNat then
      let need := if (payloadBits (profileOf c.profile).rate (profileOf c.profile).z b.infoBits) = 0 then [] else
        a.1.sys.freeGranules a.1.soft ((payloadBits (profileOf c.profile).rate (profileOf c.profile).z b.infoBits + 1023) / 1024)
      let b1 := { b with softBuf := need }
      let s1 := { a.1 with soft := a.1.soft.take need, sys := a.1.sys.clearGranules need }
      let r := resolveBurst false b1 (c :: mates) s1
      let ackOk := match r.2 with
        | some x => (match r.1.channelCfg x.channel with
          | some k => k.airClass == (profileOf x.profile).airClass
          | none => false)
        | none => false
      resolveUnreceived n others (r.1, if ackOk then a.2 ++ r.2.toList else a.2)
    else resolveUnreceived n others a

/-- Contributions of unreceived bursts by burst, the first to arrive at the head of each. -/
def groupUnreceived : Nat → List Contribution → List (List Contribution)
  | 0, _ => []
  | _, [] => []
  | n + 1, c :: rest =>
    let t := symbolTime (profileOf c.profile).width
    (c :: rest.filter fun d => sameBurst c.shortId c.seq c.start t d) ::
      groupUnreceived n (rest.filter fun d => !sameBurst c.shortId c.seq c.start t d)

/-- Contributions of the slot that are complete. -/
def State.dueContributions (s : State) : List Contribution :=
  s.rx.contributions.filter fun c => decide (s.sys.slotOf c.finish ≤ s.job.slot) && c.parts == c.received.length

/-- Bursts of the node's own reception that failed. -/
def State.failedBursts (s : State) : List Burst := s.rx.bursts.filter fun b => b.state == .closed && !b.crcOk && !b.delivered

/-- Complete contributions of bursts the node did not receive. -/
def State.unreceived (s : State) : List Contribution :=
  s.dueContributions.filter fun c =>
    !(s.failedBursts.any fun b => sameBurst b.shortId b.seq b.startNs (symbolTime (channelWidth b.channel)) c) &&
    !(s.rx.seen.any fun e => sameBurst e.shortId e.seq e.start (symbolTime (profileOf c.profile).width) c)

/-- The bursts that the combining pass resolves: home cluster and blocks to decode of each (R378). [DEDUCED: log 70] -/
def State.combineLoad (s : State) : List (Nat × Nat) :=
  let own := s.failedBursts.map fun b =>
    let cs := s.dueContributions.filter (sameBurst b.shortId b.seq b.startNs (symbolTime (channelWidth b.channel)))
    (s.homeCluster b.channel, if needsDecode cs then b.blockTotal else 0)
  let others := ((groupUnreceived (s.unreceived.length + 1) s.unreceived).filter fun cs =>
      s.sys.registered (cs.headD {}).shortId.toNat).map fun cs =>
    (s.homeCluster (cs.headD {}).channel, if needsDecode cs then (burstOf s (cs.headD {})).blockTotal else 0)
  own ++ others

/-- What tells contributions apart: node, short ID, SEQ, start, kind. -/
def Contribution.key (c : Contribution) : Nat × Nat × Nat × Nat × Nat := (c.node, c.shortId.toNat, c.seq.toNat, c.start, c.kind)

/-- The counts of the pass that are known as it starts: blocks and bursts. [DEDUCED: log 57] -/
def State.combineCounts (s : State) : SMap Nat :=
  s.combineLoad.foldl (fun m e =>
    let m1 := natPut m (countKey e.1 6) (natAt m (countKey e.1 6) + e.2)
    natPut m1 (countKey e.1 8) (natAt m1 (countKey e.1 8) + 1)) []

/-- The combining pass (R105, R106): due once COMBINE_WAIT has passed and DELIVER has ended. -/
def combinePhase (s : State) : State :=
  if s.job.phase == .combine && !s.job.worked && decide (s.slotEnd + s.job.combineWait * 1000 ≤ s.sys.now) then
    let arrived := s.rx.contributions.filter fun c => decide (s.sys.slotOf c.finish ≤ s.job.slot)
    let due := s.dueContributions
    let s0 : State := { s with
      sys := s.sys.countN Cls.COMBINE_LATE (arrived.length - due.length), job := { s.job with combCounts := s.combineCounts } }
    let r := s.failedBursts.foldl (fun (a : State × List Burst) b =>
      let d := resolveBurst true b (due.filter (sameBurst b.shortId b.seq b.startNs (symbolTime (channelWidth b.channel)))) a.1
      (d.1, a.2 ++ d.2.toList)) (s0, [])
    let r2 := resolveUnreceived (s.unreceived.length + 1) s.unreceived r
    let s1 := decideAcks r2.2 r2.1
    { s1 with
      rx := { s1.rx with
        contributions := s1.rx.contributions.filter fun c => !decide (s.sys.slotOf c.finish ≤ s.job.slot),
        refusedCombine := s1.rx.refusedCombine ++ (arrived.filter fun c => c.parts != c.received.length).map Contribution.key },
      job := { s1.job with worked := true } }
  else s

end Sys2Proof.Machine
end

