-- ==== Sys2Proof/Machine/Job.lean ====
section
/-! DEFINITION. Job control and the deadline monitor (ch. 12): set-up checks, the quarter set, reference cycles,
checkpoints, grade switch and suppression, slot reports, and the job-control commands. -/

namespace Sys2Proof.Machine

/-! ### Working cores, clusters and the quarter set (R129 to R133) -/

/-- Core IDs of a cluster's working cores, ascending: logical core j is the j-th (R130). -/
def Sys.workingCores (y : Sys) (g : Nat) : List Nat :=
  ((List.range 16).map fun i => 16 * g + i).filter fun c => !y.coreFenced c

/-- The mapping class of a cluster (R130). -/
def Sys.mappingClass (y : Sys) (g : Nat) : Nat := (y.workingCores g).length

def Sys.clusterLost (y : Sys) (g : Nat) : Bool := decide (y.mappingClass g < 14) || y.peatFenced g

/-- A quarter counts as lost when it is lost, holds a lost cluster, a fenced LPDDR6 channel or no working decoder
(R130, R178, Table 17-6). -/
def Sys.quarterLost (y : Sys) (q : Nat) : Bool :=
  y.quarterGone q || ((List.range 16).any fun i => y.clusterLost (16 * q + i))
    || ((List.range 4).any fun n => y.channelFenced (4 * q + n))
    || ((List.range 16).all fun i => y.decoderFenced (16 * q + i))

/-- Lost quarters, bit q. -/
def Sys.lostMask (y : Sys) : Nat := ((List.range 4).map fun q => (y.quarterLost q).toNat * 2 ^ q).foldl (· + ·) 0

/-- The quarter set a job takes; `none` when quarter 0 or two quarters are lost (R133). -/
def Sys.quarterSet (y : Sys) : Option Nat :=
  match y.lostMask with
  | 0 => some 0
  | 2 => some 1
  | 4 => some 2
  | 8 => some 3
  | _ => none

/-- Width index W of a cluster: 1 when a working core has a bypassed column or DETERMINISTIC is set (R132). -/
def State.widthIndex (s : State) (g : Nat) : Nat :=
  let byp := (s.sys.workingCores g).any fun c => (mapGet (fun _ => (0 : BitVec 6)) c s.heron.shadow.badColumn).getLsbD 5
  (byp || s.deterministic).toNat

/-- CMD instance number (R131). -/
def cmdInstance (phase grade cls width : Nat) : Nat := phase * 12 + grade * 6 + (16 - cls) * 2 + width

def State.instanceFor (s : State) (g phase grade : Nat) : Nat :=
  cmdInstance phase grade (s.sys.mappingClass g) (s.widthIndex g)

/-! ### Reference cycles (R134, R135) -/

/-- The count of a kind on a cluster: this slot's where known, else the previous processed slot's (R378). -/
def State.countOf (s : State) (g kind : Nat) : Nat :=
  let known := match s.job.phase with
    | .ingest | .chan | .detect => decide (kind ≤ 2)
    | .recv => decide (kind ≤ 5)
    | .decode => decide (kind ≤ 6)
    | _ => true
  natAt (if known then s.job.counts else s.job.prevCounts) (countKey g kind)

/-- A cluster's prediction for an instance, in 1/65,536 cc (R134). -/
def State.predict (s : State) (inst : Nat) (count : Nat → Nat) : Nat :=
  match s.section' 10 0 with
  | none => 0
  | some (o, len) =>
    match (List.range (len / 48)).find? fun i => s.imgNat (o + 48 * i) 2 == inst with
    | none => 0
    | some i =>
      let e := o + 48 * i
      s.imgNat (e + 4) 4 * 65536 + ((List.range 4).map fun k =>
        let kind := s.imgNat (e + 8 + 2 * k) 2
        if kind = 0 then 0 else s.imgNat (e + 0x10 + 4 * k) 4 * count kind).foldl (· + ·) 0

/-- Clusters a job runs on. -/
def State.jobClusters (s : State) : List Nat := (sliceClusters s.job.qset).filter fun g => !s.sys.clusterLost g

/-- ref(q, g): the largest prediction over the working clusters (R378). -/
def State.ref (s : State) (phase grade : Nat) : Nat :=
  ((s.jobClusters).map fun g => s.predict (s.instanceFor g phase grade) (s.countOf g)).foldl max 0

/-- The combining pass: the DECODE and DELIVER entries over given counts of the combined bursts (R378). [DEDUCED: log 57] -/
def State.refCombOf (s : State) (grade : Nat) (counts : Nat → Nat → Nat) : Nat :=
  ((s.jobClusters).map fun g =>
    s.predict (s.instanceFor g 3 grade) (counts g) + s.predict (s.instanceFor g 4 grade) (counts g)).foldl max 0

/-- The prediction as the pass starts: its iterations, not yet known, are those of the previous processed slot. [DEDUCED: log 57] -/
def State.refComb (s : State) (grade : Nat) : Nat :=
  let m := s.combineCounts
  s.refCombOf grade fun g kind => natAt (if kind = 7 then s.job.prevComb else m) (countKey g kind)

/-- The prediction over the counts that the pass gave. -/
def State.refCombRan (s : State) : Nat :=
  s.refCombOf s.job.fallback.toNat fun g kind => natAt s.job.combCounts (countKey g kind)

/-- Index of a phase in the report: 0 CHAN to 4 DELIVER, 5 combining pass. -/
def Phase.index : Phase → Nat
  | .ingest | .chan => 0
  | .detect => 1
  | .recv => 2
  | .decode => 3
  | .deliver => 4
  | .combine | .done => 5

/-! ### The monitor (R378 to R380) -/

/-- Grade index in force. -/
def State.grade (s : State) : Nat := s.job.fallback.toNat

def sumOf (m : SMap Nat) : Nat := (m.map Prod.snd).foldl (· + ·) 0

/-- σ as a fraction (R378): measured over reference of the completed phases, or the previous slot's ratio; at least 1. -/
def State.sigma (s : State) : Nat × Nat :=
  let refs := sumOf s.job.refs
  let (n, d) := if refs = 0 then (s.job.prevRatio, 256) else (sumOf s.job.measured * 3 * 65536, refs * 4)
  if n < d then (1, 1) else (n, d)

/-- now + σ × reference, in µs rounded up; `now` in ns after the end of the slot, `r` in 1/65,536 cc (R378). -/
def State.project (s : State) (now r : Nat) : Nat :=
  let (n, d) := s.sigma
  let den := d * 3 * 65536 * 1000
  (now * d * 3 * 65536 + n * r * 4 + den - 1) / den

/-- Reference of the main phases that remain, at a grade. -/
def State.remaining (s : State) (grade : Nat) : Nat :=
  (((List.range 5).filter fun p => decide (s.job.phase.index ≤ p)).map fun p => s.ref p grade).foldl (· + ·) 0

/-- Judge a projection given as a function of the grade (R379, R380): switch first, judge again at the fallback grade,
then suppress. Under replay the recorded schedule decides instead. -/
def State.judge (s : State) (proj : Nat → Nat) : State :=
  let limit := s.job.deadline - 30
  let p := proj s.grade
  let s1 := { s with job := { s.job with projMax := max s.job.projMax p } }
  if s1.job.replayActive then s1
  else if s1.job.fallback then
    if limit < p then { s1 with job := { s1.job with suppressed := true } } else s1
  else if limit < p then
    let s2 := { s1 with job := { s1.job with fallback := true, fallbackAt := s1.job.phase.index } }
    let q := proj 1
    { s2 with job := { s2.job with projMax := max s2.job.projMax q, suppressed := s2.job.suppressed || decide (limit < q) } }
  else s1

/-- Air time as the monitor reads it: at 1 µs resolution (ch. 12, deadline monitor). [DEDUCED: log 273] -/
def Sys.monitorNow (y : Sys) : Nat := y.now / 1000 * 1000

/-- A checkpoint up to the end of DELIVER. -/
def State.checkpoint (s : State) : State :=
  s.judge fun g => s.project (s.sys.monitorNow - s.slotEnd) (if s.job.phase == .combine then 0 else s.remaining g)

/-- The combining checkpoint. -/
def State.checkpointComb (s : State) : State :=
  s.judge fun g => s.project (s.sys.monitorNow - s.slotEnd) (s.refComb g)

/-! ### Counts of a slot (Table 04-10) -/

def popcount32 (v : BitVec 32) : Nat := ((List.range 32).filter fun i => v.getLsbD i).length

def State.addCount (s : State) (g kind n : Nat) : State :=
  { s with job := { s.job with counts := natPut s.job.counts (countKey g kind) (natAt s.job.counts (countKey g kind) + n) } }

/-- Streams a cluster channelises, from CHAN_ASSIGN. -/
def State.chanStreams (s : State) (g : Nat) : Nat :=
  match s.mapTable s.job.qset 1 with
  | none => 0
  | some (o, n) =>
    ((List.range 32).filter fun st => (List.range n).any fun i =>
      s.imgNat (o + 8 * i) 1 == st && s.clusterOf s.job.qset (s.imgNat (o + 8 * i + 2) 1) == g).length

/-- Counts known when a slot's ingest closes: kinds 1 and 2. -/
def countsAtStart (s : State) : State :=
  let s1 := s.jobClusters.foldl (fun a g => a.addCount g 1 (s.sys.slotLen / 20000 * s.chanStreams g))
    { s with job := { s.job with counts := [] } }
  s.job.channels.foldl (fun a c => a.addCount (s.homeCluster c.id) 2 (popcount32 c.streams)) s1

/-- Symbols of a burst that RECV of the slot in progress demodulates. -/
def State.symbolsDue (s : State) (b : Burst) : Nat :=
  if b.state == .synced || (b.state == .opened && !b.waiting) then b.arrived (s.slotEnd * unitsPerNs) - b.symbols else 0

/-- Those of them that overlap another burst. -/
def State.collidedDue (s : State) (b : Burst) : Nat :=
  ((List.range (s.symbolsDue b)).filter fun i =>
    (s.demodulated b.channel).any fun c => c.handle != b.handle && s.symbolOverlaps b c (b.symbols + i)).length

/-- RECV_LIMIT of a cluster (Table 04-16). -/
def State.recvLimit (s : State) (g : Nat) : Nat :=
  match s.mapTable s.job.qset 3 with
  | none => 65535
  | some (o, n) =>
    match (List.range n).find? fun i => s.clusterOf s.job.qset (s.imgNat (o + 8 * i) 1) == g with
    | some i => s.imgNat (o + 8 * i + 2) 2
    | none => 65535

/-- The element with the least value, the first on a tie. [DEDUCED: log 69] -/
def leastBy (f : Nat → Nat × Nat) : List Nat → Option Nat
  | [] => none
  | x :: xs =>
    match leastBy f xs with
    | none => some x
    | some y => if (f y).1 * (f x).2 < (f x).1 * (f y).2 then some y else some x

/-- The core that takes `n` symbols of a burst of cluster `g` (Table 04-9, Table 04-16): the logical core with the fewest
outstanding symbols; past the cluster's limit, that of the cluster of the quarter with the fewest per working core. -/
def State.recvCoreFor (s : State) (out : SMap Nat) (g n : Nat) : Option Nat :=
  let pick (h : Nat) : Option Nat := leastBy (fun c => (natAt out c, 1)) (s.sys.workingCores h)
  match pick g with
  | none => none
  | some c =>
    if natAt out c + n ≤ s.recvLimit g then some c
    else
      let load (h : Nat) : Nat × Nat := (((s.sys.workingCores h).map (natAt out)).foldl (· + ·) 0, (s.sys.workingCores h).length)
      match leastBy load (s.jobClusters.filter fun h => h / 16 == g / 16 && h != g) with
      | some h => pick h
      | none => some c

/-- Bursts are dealt to cores as RECV starts, in the order in which they were found. [DEDUCED: log 69] -/
def dealRecv (s : State) : State :=
  let r := s.rx.bursts.foldl (fun (a : SMap Nat × List Burst) b =>
    let n := s.symbolsDue b
    if n = 0 then (a.1, a.2 ++ [b])
    else
      match s.recvCoreFor a.1 (s.homeCluster b.channel) n with
      | none => (a.1, a.2 ++ [b])
      | some c => (natPut a.1 c (natAt a.1 c + n), a.2 ++ [{ b with recvCore := some c }])) ([], [])
  { s with rx := { s.rx with bursts := r.2 } }

/-- Counts known when DETECT ends: kinds 3, 4 and 5. -/
def countsAtRecv (s : State) : State :=
  s.rx.bursts.foldl (fun a b =>
    if 0 < s.symbolsDue b then
      let g := s.burstCluster b
      let n := s.symbolsDue b
      let st := match s.channelCfg b.channel with
        | some c => popcount32 c.streams
        | none => 0
      let a1 := (a.addCount g 3 (n * st)).addCount g 4 n
      if s.inCollision b then a1.addCount g 5 (s.collidedDue b * st) else a1
    else a) s

/-- Blocks of a burst due and not decoded. -/
def Burst.dueBlocks (b : Burst) : Nat :=
  if b.state == .synced then (decide (128 ≤ b.bitsIn) && b.header.isNone).toNat
  else if b.state == .opened && !b.waiting then
    let p := profileOf b.profile
    ((List.range b.blockTotal).filter fun i =>
      decide (128 + blockOffset p.rate p.z b.infoBits i + transmittedBits p.rate p.z b.infoBits i ≤ b.bitsIn)
        && !(b.results.any fun r => r.block == i)).length
  else 0

/-- See the log. [DESIGN CHOICE: log 253] -/
def countsAtDecode (s : State) : State :=
  s.rx.bursts.foldl (fun a b => a.addCount (s.burstCluster b) 6 b.dueBlocks) s

/-- See the log. [DEDUCED: log 57] -/
def countsAtDeliver (s : State) : State :=
  let s1 := s.decoders.foldl (fun a e => a.addCount e.1 7 e.2.iterations) s
  let s2 := s.rx.bursts.foldl (fun a b =>
    if b.state == .closed then a.addCount (s.homeCluster b.channel) 8 1 else a) s1
  { s2 with decoders := s2.decoders.map fun e => (e.1, { e.2 with iterations := 0 }) }

/-! ### Phases -/

/-- The phase that follows. -/
def Phase.next : Phase → Phase
  | .ingest => .chan
  | .chan => .detect
  | .detect => .recv
  | .recv => .decode
  | .decode => .deliver
  | .deliver => .combine
  | .combine | .done => .done

/-- Is a job processing slots? -/
def Job.active (j : Job) : Bool := j.state == .running || j.state == .stopping

/-- A weight copy's poison faults the job at the next phase boundary (R512). -/
def weightPoisonCheck (s : State) : State :=
  if s.sys.weightPoison then
    s.onSys fun y => { y with weightPoison := false }.fault Cls.WEIGHT_POISON UnitCode.clusterController 0 0 0
  else s

/-- A side list whose correction pass met poison faults the job at the next phase boundary (Table 17-7). -/
def sidePoisonCheck (s : State) : State :=
  match s.comp.sideRecord with
  | none => s
  | some r =>
    { s with
      comp := { s.comp with sideRecord := none },
      sys := { s.sys with jobFault := s.sys.jobFault <|> some r } }

/-- Predictions of the completed phases, each at the grade that it ran at, with the counts now known (R378, R382). -/
def refreshRefs (s : State) : State :=
  let g (i : Nat) : Nat := (s.job.fallback && decide (s.job.fallbackAt ≤ i)).toNat
  { s with
    job := { s.job with
      refs := (List.range s.job.phase.index).foldl (fun m i => natPut m i (s.ref i (g i))) [] } }

/-- End of a phase at its barrier: measured time and reference, the next phase, its counts and the checkpoint (R364,
R378, R382). -/
def endPhase (s : State) : State :=
  let i := s.job.phase.index
  let s0 := sidePoisonCheck (weightPoisonCheck s)
  let s1 := { s0 with
    job := { s0.job with
    measured := natPut s0.job.measured i (s0.sys.monitorNow - s0.job.phaseFrom) } }
  let s2 := { s1 with job := { s1.job with phase := s1.job.phase.next, phaseFrom := s1.sys.monitorNow, worked := false } }
  let s3 := match s2.job.phase with
    | .recv => countsAtRecv (dealRecv s2)
    | .decode => countsAtDecode s2
    | .deliver => countsAtDeliver s2
    | _ => s2
  (refreshRefs s3).checkpoint

/-! ### Slot report (R382, R383) -/

/-- round(256 × measured / reference), ties away, saturated; 0xFFFF for a zero reference (R382). `m` in ns of air time,
`r` in 1/65,536 cc. -/
def ratioOf (m r : Nat) : Nat :=
  if r = 0 then 0xFFFF else min 0xFFFF ((2 * 256 * m * 3 * 65536 + 4 * r) / (2 * 4 * r))

def phaseRatio (j : Job) (i : Nat) : Nat :=
  if i < 5 || j.worked then ratioOf (natAt j.measured i) (natAt j.refs i) else 0

/-- The SLOT_REPORT record (Table 12-4). `finish` in ns after the end of the slot. -/
def slotReport (j : Job) (causes : BitVec 5) (finish : Nat) : List (Nat × Nat × Nat) :=
  [(2, 6, j.slot % 2 ^ 48), (8, 2, ratioOf (sumOf j.measured) (sumOf j.refs))]
  ++ ((List.range 6).map fun i => (10 + 2 * i, 2, phaseRatio j i))
  ++ [(22, 1, causes.toNat),
      (23, 1, j.fallback.toNat + 2 * j.fallbackAt + 16 * j.suppressed.toNat + 32 * j.afterSkip.toNat + 64 * j.replayed.toNat),
      (24, 2, min 65535 (finish / 1000)), (26, 2, min 65535 j.projMax), (28, 2, min 65535 j.closed), (30, 2, min 65535 j.acked)]

/-! ### Set-up checks at JOB_START (R580) -/

/-- Fields of a register outside a range the table gives. -/
def fieldsInRange (y : Sys) (off : Nat) (fs : List Fld) : Bool :=
  fs.all fun f => match f.lim with
    | none => true
    | some (a, b) => f.acc != .rwl || (decide (a ≤ bitsOf (y.reg off) f.lo f.len) && decide (bitsOf (y.reg off) f.lo f.len ≤ b))

def tableInRange (y : Sys) : Bool :=
  (timeRegs ++ jobRegs ++ pwrRegs).all fun g => (List.range g.count).all fun i => fieldsInRange y (g.base + i * g.stride) g.flds

/-- A VALID licence window's fields lie in range (R525). -/
def windowOk (y : Sys) (n : Nat) : Bool :=
  let a := y.reg (0x060100 + 16 * n)
  let d := y.reg (0x060108 + 16 * n)
  !a.testBit 31 ||
    (decide (bitsOf a 0 13 ≤ bitsOf a 16 13) && decide (bitsOf a 32 16 ≤ 32000) && decide (1 ≤ bitsOf a 48 10)
      && decide (bitsOf a 48 10 ≤ 1000) && decide (bitsOf d 0 20 ≤ 900000)
      && (decide (bitsOf d 32 20 ≤ 900000) || bitsOf d 32 20 == 0xFFFFF))

def windowsOk (y : Sys) : Bool := (List.range 16).all (windowOk y)

/-- Response deadline, fronthaul delay and combining wait (R77, R80, R105), in µs. -/
def deadlinesOk (slotLen d fh cw : Nat) : Bool :=
  decide (200 ≤ d) && decide (d ≤ 1800) && decide (d * 1000 + 150000 ≤ slotLen) && decide (20 ≤ fh) && decide (fh ≤ 400)
    && decide (fh + 100 ≤ d) && decide (60 ≤ cw) && decide (cw + 140 ≤ d)

def softHoldOk (h : Nat) : Bool := decide (1 ≤ h) && decide (h ≤ 600)

/-- Ring set-up fields (Table 15-3). -/
def ringFieldsOk (y : Sys) (r : Nat) : Bool :=
  let o := 0x070000 + 0x20 * r
  decide (y.reg o % 4096 = 0) && decide (6 ≤ y.regField (o + 8) 0 5) && decide (y.regField (o + 8) 0 5 ≤ 16)
    && decide (y.reg (o + 0x10) % 4096 = 0) && decide (11 ≤ y.regField (o + 0x18) 0 4) && decide (y.regField (o + 0x18) 0 4 ≤ 14)

/-- Radio units and fabric routes with VALID set name a network port (Tables 16-7, 16-8), and no antenna stream belongs to
two radio units (R463). -/
def netFieldsOk (y : Sys) : Bool :=
  let unit (u : Nat) : Nat := y.reg (0x040108 + 16 * u)
  ((List.range 8).all fun u =>
    !(unit u).testBit 0 ||
      (decide (bitsOf (unit u) 1 3 ≤ 3) && (List.range u).all fun v =>
        !(unit v).testBit 0 || Nat.land (bitsOf (unit u) 16 32) (bitsOf (unit v) 16 32) == 0)) &&
  ((List.range 64).all fun d =>
    let r := y.reg (0x0B0080 + 8 * d)
    !r.testBit 63 || decide (bitsOf r 48 3 ≤ 3))

/-- SLOT_LEN and STREAM_MODE agree with the resident image (R587). -/
def State.imageAgrees (s : State) : Bool :=
  (s.imgNat 0x23 1).testBit (s.sys.regField 0x080020 0 2) && s.imgNat 0x22 1 == s.sys.regField 0x080020 2 1

/-- Replay registers, when REPLAY is set (R571, Table 20-4). -/
def replayOk (y : Sys) : Bool :=
  y.regField 0x080000 8 1 == 0 || (decide (y.reg 0x080010 % 4096 = 0) && decide (1 ≤ y.reg 0x080018))

def State.setupOk (s : State) : Bool :=
  let y := s.sys
  tableInRange y && windowsOk y && ((List.range 18).all (ringFieldsOk y)) && netFieldsOk y && replayOk y && s.imageAgrees
    && deadlinesOk y.slotLen (y.regField 0x080028 0 16) (y.regField 0x080028 16 16) (y.regField 0x08002C 0 16)
    && softHoldOk (y.regField 0x08002C 16 10)

/-! ### Completions and refusals -/

/-- See the log. [DEDUCED: log 46] -/
def jobDone (s : State) (opcode : Nat) (seqno : BitVec 16) (status reason : Nat) : State :=
  s.onSys fun y => y.completion Cls.COMPLETION 0 opcode seqno.toNat status reason 0

/-- Raise JOB_CONFIG_INVALID (Table 21-11); `ring` is 0xFF for a start issued by Heron. [DEDUCED: log 47] -/
def configInvalid (s : State) (ring opcode seqno : Nat) : State :=
  s.onSys fun y => y.event Cls.JOB_CONFIG_INVALID [(2, 1, ring), (3, 1, opcode), (4, 2, seqno)]

/-- A command whose parameters break a rule (R374). [DEDUCED: log 47] -/
def rejectInvalid (s : State) (opcode : Nat) (seqno : BitVec 16) : State :=
  jobDone (configInvalid s 0 opcode seqno.toNat) opcode seqno 2 0

def wrongState (s : State) (opcode : Nat) (seqno : BitVec 16) : State := jobDone s opcode seqno 3 0

/-- Is a buffer of `n` bytes inside the host window (R431)? -/
def hostRange (addr n : Nat) : Bool := decide (addr + n ≤ 0x3FEC00000000)

/-! ### CHANNEL_SET (R40, R41, R47, R122, R374) -/

def parseChannel (e : BitVec 64) : Channel :=
  { id := BitVec.ofNat 16 (bitsOf e.toNat 0 16), airClass := bitsOf e.toNat 16 8, streams := BitVec.ofNat 32 (bitsOf e.toNat 32 32) }

/-- One entry's own rules (Tables 02-1, 15-6; R39, R41, R47, R122). -/
def channelOk (s : State) (c : Channel) : Bool :=
  let n := popcount32 c.streams
  let w := channelWidth c.id
  let mode1 := s.sys.regField 0x080020 2 1 == 1
  !c.id.getLsbD 13 && decide (channelFirst c.id % w = 0) && airClassValid c.airClass
    && (classProfile c.airClass).width == w && (s.imgNat 0x20 2).testBit c.airClass
    && (n == 1 || n == 2 || n == 4 || n == 8)
    && (mode1 || decide (c.streams.toNat < 2 ^ 16))
    && (!mode1 || (decide (2048 ≤ channelFirst c.id) && decide (channelFirst c.id + w ≤ 6144)))

/-- No two channels share a bin (R40). -/
def disjointChannels : List Channel → Bool
  | [] => true
  | c :: cs => (cs.all fun d =>
      decide (channelFirst c.id + channelWidth c.id ≤ channelFirst d.id) || decide (channelFirst d.id + channelWidth d.id ≤ channelFirst c.id))
      && disjointChannels cs

/-- See the log. [DEDUCED: log 56] -/
def channelsOk (s : State) (cs : List Channel) : Bool :=
  decide (cs.length ≤ 8192) && cs.all (channelOk s) && disjointChannels cs

/-- Replace the channel table: bursts of removed or changed channels are discarded (CHANNEL_REMOVED), their receive state
goes, and absolute frames held on them end with reason CHANNEL (R374, Table 15-8). Answers the frames that end. -/
def setChannels (cs : List Channel) (s : State) : State × List HeldFrame :=
  let stays (id : BitVec 16) : Bool := cs.any fun c => c.id == id &&
    (match s.channelCfg id with | some d => d.airClass == c.airClass | none => false)
  let s1 := s.discardWhere Cls.CHANNEL_REMOVED fun b => b.active && !stays b.channel
  let gone := s1.downlink.held.filter fun f => (!f.anchored || f.released) && !stays f.channel
  let key (k : Nat) : Bool := stays (BitVec.ofNat 16 (k / 32))
  let one (k : Nat) : Bool := stays (BitVec.ofNat 16 k)
  ({ s1 with
      job := { s1.job with channels := cs },
      downlink := { s1.downlink with held := s1.downlink.held.filter fun f => !gone.contains f },
      rx := { s1.rx with
        gains := mapFilter key s1.rx.gains, samples := mapFilter key s1.rx.samples, scaled := mapFilter key s1.rx.scaled,
        store := mapFilter key s1.rx.store, clips := mapFilter one s1.rx.clips, noiseFloor := mapFilter one s1.rx.noiseFloor,
        holdCount := mapFilter one s1.rx.holdCount, searched := mapFilter one s1.rx.searched,
        rampEnd := mapFilter one s1.rx.rampEnd } }, gone)

/-- A held command frame leaves service: DISCARDED with a reason of Table 15-8 (R446). -/
def endFrame (reason : Nat) (s : State) (f : HeldFrame) : State :=
  s.onSys fun y => y.completion Cls.COMPLETION f.ring 0x30 f.seqno.toNat 5 reason 0

/-- End every held frame `p` selects. [DEDUCED: log 67] -/
def State.endFrames (s : State) (reason : Nat) (p : HeldFrame → Bool) : State :=
  let out := s.downlink.held.filter p
  out.foldl (endFrame reason) { s with downlink := { s.downlink with held := s.downlink.held.filter fun f => !p f } }

def applyChannelSet (seqno : BitVec 16) (addr : BitVec 64) (table : List (BitVec 64)) (s : State) : State :=
  if !s.job.active then wrongState s 0x04 seqno
  else
    let cs := table.map parseChannel
    if !hostRange addr.toNat (8 * table.length) then jobDone s 0x04 seqno 2 0
    else if !channelsOk s cs then rejectInvalid s 0x04 seqno
    else
      let r := setChannels cs s
      jobDone (r.2.foldl (endFrame 10) r.1) 0x04 seqno 0 0

/-! ### PARAM_SET (R374, R442) -/

/-- One entry of a detection table over the parameters in force: a zero first byte leaves the entry unchanged. -/
def mergeDet (p : DetParams) (e : BitVec 64) : DetParams :=
  let v := e.toNat
  if bitsOf v 0 8 = 0 then p
  else { thresh := bitsOf v 0 8, snrMin := bitsOf v 8 8, hold := bitsOf v 16 8, sync := bitsOf v 24 8, syncBusy := bitsOf v 32 8 }

def detOk (p : DetParams) : Bool :=
  decide (30 ≤ p.thresh ∧ p.thresh ≤ 95) && decide (p.snrMin ≤ 24) && decide (2 ≤ p.hold ∧ p.hold ≤ 8)
    && decide (50 ≤ p.sync ∧ p.sync ≤ 95) && decide (40 ≤ p.syncBusy ∧ p.syncBusy ≤ 95)

def applyParamSet (seqno d fh cw hold : BitVec 16) (detAddr : BitVec 64) (det : List (BitVec 64)) (s : State) : State :=
  if s.job.state != .running then wrongState s 0x05 seqno
  else
    let pick (v : BitVec 16) (old : Nat) : Nat := if v = 0 then old else v.toNat
    let d' := pick d s.job.deadlineNext
    let fh' := pick fh s.job.fhMaxDelay
    let cw' := pick cw s.job.combineWait
    let h' := pick hold s.job.softHold
    let merged := if detAddr = 0 then s.job.det
      else ((List.range 12).foldl (fun m a =>
        match det[a]? with
        | some e => mapSet detDefault a (mergeDet (mapGet detDefault a m) e) m
        | none => m) s.job.det)
    let okDet := (List.range 12).all fun a => detOk (mapGet detDefault a merged)
    if !(detAddr = 0 || hostRange detAddr.toNat 96) then jobDone s 0x05 seqno 2 0
    else if deadlinesOk s.sys.slotLen d' fh' cw' && softHoldOk h' && okDet then
      jobDone { s with
        job := { s.job with
        deadlineNext := d', fhMaxDelay := fh', combineWait := cw', softHold := h', det := merged } } 0x05 seqno 0 0
    else rejectInvalid s 0x05 seqno

/-! ### JOB_STOP, faults -/

/-- A core stops: its stream is abandoned, its ports are empty, and it is in the service state (R217, R376). -/
def abandon (k : Core) : Core :=
  { k with
    inJob := false, stream := none, movers := [], packets := [], signals := [], dones := [],
    vec := [], call := none, array := { k.array with loader := [], streamer := [], step := 0, drains := [] },
    su := { k.su with
      port := [], running := false, issued := false, started := false, done := 0, halting := false, returning := false, handler := false,
      delay := 0, target := none, skipTo := none, loops := [], writes := [] } }

def State.abandonAll (s : State) : State :=
  { s with cores := s.cores.map fun e => (e.1, abandon e.2), comp := { s.comp with signals := [], groups := [] } }

/-- The job is over: READY, SETUP_LOCK clear, cores in the service state (R375, Table 12-1). -/
def toReady (s : State) : State :=
  { s.abandonAll with
    job := { s.job with
      state := .ready, lock := false, batch := [], deferred := [], stepNow := none, phase := .done, worked := false,
      replayActive := false, restartEvent := false },
    rx := { s.rx with samples := [], scaled := [], contributions := [] } }

/-- Bursts still in states DETECTED to OPEN at the last boundary are discarded, each counted (R375). [DEDUCED: log 67] -/
def stopJob (s : State) : State := toReady (s.discardWhere Cls.JOB_STOP_DISCARD Burst.active)

/-- Completion of a JOB_STOP; its DETAIL carries the deferred joins that the stop cancels, where that of STEP has them (R386, Table 15-9). [DESIGN CHOICE: log 274] -/
def stopDone (cancelled : Nat) (seqno : BitVec 16) (s : State) : State :=
  s.onSys fun y => y.completion Cls.COMPLETION 0 0x03 seqno.toNat 0 0 (min 65535 cancelled * 2 ^ 48)

/-- JOB_STOP (R375): at a boundary the job enters STOPPING for one further slot, and command frames still held end STOPPED;
in stepped mode no further slot would start, so the job ends; from FAULTED it goes to READY. [DEDUCED: log 67] -/
def applyJobStop (seqno : BitVec 16) (s : State) : State :=
  match s.job.state with
  | .running =>
    let s1 := s.endFrames 8 fun _ => true
    stopDone s.job.deferred.length seqno (if s.jobMode 1 1 = 1 then stopJob s1
      else { s1 with job := { s1.job with state := .stopping, deferred := [] } })
  | .faulted => stopDone s.job.deferred.length seqno (toReady s)
  | _ => wrongState s 0x03 seqno

/-- Bits of a fault record. -/
def recordField (r : Record) (o n : Nat) : Nat := bitsOf r.toNat (8 * o) (8 * n)

/-- A job fault (R376): streams are abandoned, undelivered bursts produce no record, held command frames end STOPPED;
loss of quarter 1 to 3 of a running job restarts it (R377). -/
def jobFaulted (s : State) : State :=
  match s.sys.jobFault with
  | none => s
  | some r =>
    if s.job.active || s.job.state == .starting then
      let s1 := s.onSys fun y => { y with jobFault := none }.event Cls.JOB_FAULT
        [(2, 6, s.job.slot % 2 ^ 48), (8, 2, recordField r 0 2), (10, 2, recordField r 6 2), (12, 2, recordField r 4 2)]
      let s2 := match s.job.startSeq with
        | some q => jobDone (s1.endFrames 8 fun _ => true) 0x02 q 2 0
        | none => s1.endFrames 8 fun _ => true
      let s3 := s2.rx.bursts.foldl (fun a b => a.discardBurst b (a.abandonTime b)) s2
      { s3.abandonAll with
        job := { s3.job with
          state := .faulted, startSeq := none, stepNow := none, phase := .done, worked := false,
          restartEvent := s.job.active && decide (recordField r 0 2 = Cls.QUARTER_LOST) && !s.sys.quarterLost 0 },
        rx := { s3.rx with bursts := [], held := [], contributions := [], samples := [], scaled := [] },
        decoders := [] }
    else s.onSys fun y => { y with jobFault := none }

/-! ### STEP (R384 to R387, R427) -/

/-- One leave of a step: outcome 0 DONE, 2 cancels a deferred join, 3 LEAVE_UNKNOWN. [DEDUCED: log 211] -/
def stepLeave (sid : BitVec 20) (s : State) : State × Nat :=
  if s.job.batch.contains sid then
    let s1 := (s.rx.bursts.filter fun b => b.shortId == sid && b.state == .opened).foldl (fun a b => a.discardBurst b b.endTime) s
    let s2 := match s1.sessionSlot sid.toNat with
      | some k => s1.onSys fun y => spillNow y k
      | none => s1
    ({ s2 with job := { s2.job with batch := s2.job.batch.filter fun x => x != sid } }, 0)
  else if s.job.deferred.contains sid then
    ({ s with job := { s.job with deferred := s.job.deferred.filter fun x => x != sid } }, 0)
  else (s, 3)

/-- Try to join: a FREE slot of the session's slice (R386, R427). -/
def tryJoin (sid : BitVec 20) (s : State) : Option State :=
  let free := (slotsOfSlice (sliceOf s.job.qset sid.toNat)).find? fun k => s.sys.ctxState k == ctxFree
  free.map fun k =>
    let y := (refreshCtx (s.sys.repairRecord sid.toNat) k sid.toNat s.job.slot).setCtxState k sid.toNat ctxIdle true
    { s with sys := y, job := { s.job with batch := s.job.batch ++ [sid] } }

/-- One join of a step: 0 DONE, 1 JOIN_DEFERRED, 4 JOIN_DUPLICATE. [DEDUCED: log 211] -/
def stepJoin (sid : BitVec 20) (s : State) : State × Nat :=
  if s.job.batch.contains sid || s.job.deferred.contains sid then (s, 4)
  else match tryJoin sid s with
    | some t => (t, 0)
    | none => ({ s with job := { s.job with deferred := s.job.deferred ++ [sid] } }, 1)

/-- Joins deferred from earlier steps, oldest first: (state, done, cancelled). A deregistered session is cancelled
(Table 12-6). -/
def deferredJoins (s : State) : State × Nat × Nat :=
  s.job.deferred.foldl (fun (a : State × Nat × Nat) sid =>
    let drop (t : State) : State := { t with job := { t.job with deferred := t.job.deferred.filter fun x => x != sid } }
    if !a.1.sys.registered sid.toNat then (drop a.1, a.2.1, a.2.2 + 1)
    else match tryJoin sid a.1 with
      | some t => (drop t, a.2.1 + 1, a.2.2)
      | none => a) (s, 0, 0)

/-- Write the outcome byte of STEP list entry `i` (Table 15-6). -/
def writeOutcome (addr : Nat) (i o : Nat) (y : Sys) : Sys := y.poke (hostBase + addr + 4 * i + 3) (BitVec.ofNat 8 o)

/-- Run a list of leaves or joins, writing outcomes; answers how many gave each of outcomes 0 and 1. -/
def runList (f : BitVec 20 → State → State × Nat) (addr : Nat) : Nat → List (BitVec 20) → State → State × Nat × Nat
  | _, [], s => (s, 0, 0)
  | i, sid :: rest, s =>
    let r := f sid s
    let t := runList f addr (i + 1) rest (r.1.onSys (writeOutcome addr i r.2))
    (t.1, t.2.1 + (decide (r.2 = 0)).toNat, t.2.2 + (decide (r.2 = 1)).toNat)

/-- Changes of a step in the order of R386; the DETAIL of STEP_DONE (Table 15-9). [DEDUCED: log 211] -/
def stepChanges (c : StepCmd) (s : State) : State × Nat :=
  let cancelledByLeave := (c.leaves.filter fun sid => !s.job.batch.contains sid && s.job.deferred.contains sid).length
  let a := runList stepLeave c.listAddr.toNat 0 c.leaves s
  let d := deferredJoins a.1
  let j := runList stepJoin c.listAddr.toNat c.leaves.length c.joins d.1
  (j.1, j.2.1 + j.2.2 * 2 ^ 16 + d.2.1 * 2 ^ 32 + (d.2.2 + cancelledByLeave) * 2 ^ 48)

end Sys2Proof.Machine
end

