-- ==== Sys2Proof/Machine/Mover.lean ====
section
/-! DEFINITION. The mover of a core: its queues and packets, stream-ring fills, and multicast (R345 to R349, R352 to R360). -/

namespace Sys2Proof.Machine

/-! ### Fields -/

def Cmd.burst (w : Cmd) : Nat := w.param 32 0 16
def Cmd.queue (w : Cmd) : Nat := w.param 34 0 2
def Cmd.group (w : Cmd) : Nat := w.param 35 0 8
def Cmd.feedRing (w : Cmd) : Nat := w.param 36 0 8

/-- Rules of every MOV command (Table 06-6). -/
def movLegal (r0 r1 : Nat) (w : Cmd) : Bool :=
  commonOk w false r0 r1 0 && w.param 6 4 12 == 0 && decide (1 ≤ w.burst ∧ w.burst ≤ 4096)

def feedLegal (k : Core) (w : Cmd) : Bool :=
  movLegal 0 0 w && decide (1 ≤ w.levels) && decide (w.feedRing < 8) && (k.ring w.feedRing).enabled
    && decide (w.count 0 * w.burst ≤ (k.ring w.feedRing).slotKib * 1024)

/-! ### Queues -/

def moverRoom (k : Core) (w : Cmd) : Bool := decide ((moverQueue k w.queue).length < 16)

/-- Put a command in its queue (R196); a first RING_FEED makes its ring one that feeds fill (R354). -/
def enqueueMove (c : Nat) (p : PortCmd) (s : State) : State :=
  s.onCore c fun k =>
    let k1 := { setMoverQueue k p.word.queue (moverQueue k p.word.queue ++ [{ cmd := p, serial := k.serial }]) with serial := k.serial + 1 }
    if p.word.opcode = 0x63 then
      let r := k1.ring p.word.feedRing
      if r.feeds then k1 else k1.setRing p.word.feedRing { r with feeds := true, fill := r.tail }
    else k1

def movGet (i : Issue) (s : State) : State :=
  s.issueCmd i 0x60 UnitCode.mover (movLegal 1 0) moverRoom fun p t => enqueueMove i.core.toNat p (vecRun i.core.toNat t)
def movPut (i : Issue) (s : State) : State :=
  s.issueCmd i 0x61 UnitCode.mover (movLegal 0 1) moverRoom fun p t => enqueueMove i.core.toNat p (vecRun i.core.toNat t)
def movMcast (i : Issue) (s : State) : State :=
  s.issueCmd i 0x62 UnitCode.mover (movLegal 0 1) moverRoom fun p t => enqueueMove i.core.toNat p (vecRun i.core.toNat t)
def movRingFeed (i : Issue) (s : State) : State :=
  s.issueCmd i 0x63 UnitCode.mover (feedLegal (s.core i.core.toNat)) moverRoom fun p t => enqueueMove i.core.toNat p (vecRun i.core.toNat t)

def MoverCmd.done (m : MoverCmd) : Bool := decide (m.cmd.word.steps ≤ m.step) && !m.filling

/-- A call whose routine has no mover write left returns (R214). -/
def returnCall (c : Nat) (s : State) : State :=
  s.onCore c fun k =>
    match k.call with
    | some w => if (moverQueue k 3).isEmpty then { (k.complete w) with call := none } else k
    | none => k

/-- Facts of a fault at a mover access: the address, and within a routine also the routine and its internal step, which the manual does
not number (R215). [DEDUCED: log 266] -/
def moverDetail (k : Core) (q addr : Nat) (y : Sys) : Nat × Sys :=
  match (if q = 3 then k.call else none) with
  | some w =>
    let f := y.draw 32
    (addr + w.param 0 0 8 * 2 ^ 64 + f.1.toNat * 2 ^ 72, f.2)
  | none => (addr, y)

/-- A command whose requests have all been issued and acknowledged, and whose fills have committed, completes (R347). -/
def retireMove (c q : Nat) (s : State) : State :=
  let k := s.core c
  match moverQueue k q with
  | [] => s
  | m :: rest =>
    let busy := (k.packets.any fun p => p.queue == q && p.serial == m.serial)
      || (List.range 8).any fun r => (k.ring r).fills.any fun f => f.1 == q && f.2.1 == m.serial
    if m.done && !busy then
      returnCall c (releaseSignals c (s.setCore c ((setMoverQueue k q rest).complete m.cmd.word)))
    else s

def setHead (k : Core) (q : Nat) (m : MoverCmd) : Core :=
  setMoverQueue k q (m :: (moverQueue k q).drop 1)

/-! ### Multicast groups (R357 to R360) -/

/-- Offset of a group's entry in the MAP instance in force (Table 11-5). -/
def State.groupEntry (s : State) (g : Nat) : Option Nat :=
  match s.mapTable s.job.qset 9 with
  | none => none
  | some (o, n) => ((List.range n).find? fun i => s.imgNat (o + 32 * i) 1 == g).map fun i => o + 32 * i

/-- Members of a group: core IDs of the mapping the job took at its start, without the issuing core and cores that a cluster lacks. -/
def State.groupMembers (s : State) (e sender : Nat) : List Nat :=
  let clusters := (List.range 64).filter fun i => (s.imgNat (e + 8) 8).testBit i
  (clusters.flatMap fun i =>
    let qset := s.job.qset
    let raw := match s.section' 8 qset with | some x => s.imgNat (x.1 + i) 1 | none => 0xFF
    if raw = 0xFF then [] else
      let ws := (s.comp.participants.map Prod.fst).filter fun c => c / 16 == raw % 64
      ((List.range 16).filter fun j => (s.imgNat (e + 16) 2).testBit j).filterMap fun j => ws[j]?).filter fun c => c != sender

def groupDefault' (_ : Nat) : Group := {}
def groupKey (g sender : Nat) : Nat := g * 1024 + sender
def State.mgroup (s : State) (key : Nat) : Group := mapGet groupDefault' key s.comp.groups
def State.setMgroup (s : State) (key : Nat) (g : Group) : State :=
  { s with comp := { s.comp with groups := mapSet groupDefault' key g s.comp.groups } }

/-- Lag of a member: largest H of the members minus its own, modulo 2^32. -/
def State.lag (s : State) (members : List Nat) (ring c : Nat) : Nat :=
  (members.map fun d => ((s.core d).ring ring).head.toNat).foldl max 0 - ((s.core c).ring ring).head.toNat

/-- Members that receive a step of RING mode: not dropped, and not fenced, whose lag and space count for nothing (Table 11-7). -/
def State.liveMembers (s : State) (members : List Nat) (key : Nat) : List Nat :=
  members.filter fun d => !(s.mgroup key).dropped.contains d && !s.sys.coreFenced d

/-- Members that a waiting step drops: without space and more than 4 blocks behind (R360). -/
def dropLaggards (key ring : Nat) (live : List Nat) (s : State) : State :=
  (live.filter fun c => ((s.core c).ring ring).space == 0 && decide (4 < s.lag live ring c)).foldl (fun a c =>
    let g := a.mgroup key
    let a1 := (a.setMgroup key { g with dropped := g.dropped ++ [c] }).onSys fun y => y.countLocal Cls.MCAST_DROP 1
    a1.onCore c fun k =>
      let r := k.ring ring
      k.setRing ring { r with feeds := true, fill := r.tail, pulls := some (key, g.blocks) }) s

/-- A multicast write at each member; at a fenced one it is discarded and raises FENCED_ACCESS with the sender's tag (R24). -/
def mcastWrite (c tag : Nat) (at_ : Nat → Nat) (bytes : List Byte) (marks : List Bool) (s : State) (d : Nat) : State :=
  if s.sys.coreFenced d then s.onSys fun y => y.fault Cls.FENCED_ACCESS UnitCode.mover c tag (spadByte d (at_ d))
  else s.onSys (spadMarked d (at_ d) bytes marks)

/-- One step of a MOV.MCAST: ADDRESS mode writes it in every member; RING mode waits for space and then writes each
member's tail slot. [DEDUCED: log 113, 114] -/
def mcastStep (c q : Nat) (m : MoverCmd) (s : State) : State :=
  let w := m.cmd.word
  let k := s.core c
  let src := m.cmd.addr 1 m.step
  let bytes := s.sys.spadRead c src w.burst
  let marks := (List.range w.burst).map fun i => s.sys.spadPoison c (src + i) 1
  let pkt : Packet := { queue := q, serial := m.serial, read := false, len := w.burst }
  let issued (t : State) : State := t.setCore c { setHead (t.core c) q { m with step := m.step + 1, filling := true } with
    packets := (t.core c).packets ++ [pkt] }
  match s.groupEntry w.group with
  | none => s.setCore c (setHead k q { m with step := m.step + 1 })
  | some e =>
    let members := s.groupMembers e c
    if s.imgNat (e + 1) 1 = 0 then
      issued (members.foldl (mcastWrite c w.tag (fun _ => src) bytes marks) s)
    else
      let ring := s.imgNat (e + 2) 1 % 8
      let key := groupKey w.group c
      let s1 := dropLaggards key ring (s.liveMembers members key) s
      let live := s1.liveMembers members key
      if live.any fun d => ((s1.core d).ring ring).space == 0 then s1
      else
        let off := w.addrAt 1 (w.opAddr 1) m.step
        let place (d : Nat) : Nat := let r := (s1.core d).ring ring; r.slotAddr r.tail + off
        issued ((members.filter fun d => !(s1.mgroup key).dropped.contains d).foldl (mcastWrite c w.tag place bytes marks) s1)

/-- All members have acknowledged a step: in RING mode T of every member not dropped rises (R359). [DEDUCED: log 113] -/
def mcastDone (c : Nat) (m : MoverCmd) (s : State) : State :=
  let w := m.cmd.word
  match s.groupEntry w.group with
  | none => s
  | some e =>
    if s.imgNat (e + 1) 1 = 0 then s
    else
      let ring := s.imgNat (e + 2) 1 % 8
      let key := groupKey w.group c
      let g := s.mgroup key
      let live := s.liveMembers (s.groupMembers e c) key
      ((live.foldl (fun t d => t.onCore d fun k => k.setRing ring { k.ring ring with tail := (k.ring ring).tail + 1 }) s).setMgroup key
        { g with blocks := g.blocks + 1 }).happen

/-- After a release: steps that wait at the head of a queue drop the members that now lag too far (R360). [DEDUCED: log 116] -/
def dropAfterRelease (s : State) : State :=
  (s.cores.map Prod.fst).foldl (fun a c =>
    (List.range 4).foldl (fun b q =>
      match moverQueue (b.core c) q with
      | m :: _ =>
        if m.cmd.word.opcode == 0x62 && !m.filling && !m.done then
          match b.groupEntry m.cmd.word.group with
          | some e =>
            if b.imgNat (e + 1) 1 = 1 then
              let key := groupKey m.cmd.word.group c
              dropLaggards key (b.imgNat (e + 2) 1 % 8) (b.liveMembers (b.groupMembers e c) key) b
            else b
          | none => b
        else b
      | [] => b) a) s

/-! ### Packets (R346 to R349) -/

/-- The next packet of a step: its global address and length, cut at 64-byte boundaries. -/
def MoverCmd.nextPacket (m : MoverCmd) : Nat × Nat :=
  let g := m.cmd.word.globalAt m.step + m.off
  (g, min (64 - g % 64) (m.cmd.word.burst - m.off))

/-- Move past a packet of `n` bytes. -/
def MoverCmd.past (m : MoverCmd) (n : Nat) : MoverCmd :=
  if m.cmd.word.burst ≤ m.off + n then { m with step := m.step + 1, off := 0 } else { m with off := m.off + n }

/-- Scratchpad address of the present place of a command. -/
def MoverCmd.localAddr (m : MoverCmd) (k : Core) : Nat :=
  let w := m.cmd.word
  match w.opcode with
  | 0x60 => m.cmd.addr 0 m.step + m.off
  | 0x61 => m.cmd.addr 1 m.step + m.off
  | _ => (k.ring w.feedRing).slotAddr (BitVec.ofNat 32 m.slot) + m.step % max 1 (w.count 0) * w.burst + m.off

/-- Is the present place of a RING_FEED inside an open fill? [DEDUCED: log 112] -/
def MoverCmd.mayIssue (m : MoverCmd) : Bool :=
  decide (m.step < m.cmd.word.steps) && (m.cmd.word.opcode != 0x63 || m.filling)

/-- The remote packets that one request takes together: at most `n`, at consecutive addresses of one node's memory, at most 4,096 bytes;
one that R25 refuses is no part of it (R477). -/
def gather (y : Sys) (k : Core) (node : Nat) : Nat → MoverCmd → Nat → Nat → List (Nat × Nat × Nat)
  | 0, _, _, _ => []
  | n + 1, m, expect, total =>
    let p := m.nextPacket
    let goes := match y.target p.1 with | .remote d _ => d == node | _ => false
    if m.mayIssue && goes && p.1 == expect && decide (total + p.2 ≤ 4096) then
      let m1 := m.past p.2
      let closed := m.cmd.word.opcode == 0x63 && m1.off == 0 && m1.step % max 1 (m.cmd.word.count 0) == 0
      (p.1, p.2, m.localAddr k) :: (if closed then [] else gather y k node n m1 (expect + p.2) (total + p.2))
    else []

/-- Closing a fill whose last request has been issued (R355). -/
def closeFill (q : Nat) (m : MoverCmd) (k : Core) : MoverCmd × Core :=
  let w := m.cmd.word
  if w.opcode == 0x63 && m.filling && m.off == 0 && m.step % max 1 (w.count 0) == 0 then
    let r := k.ring w.feedRing
    ({ m with filling := false },
      k.setRing w.feedRing { r with fills := r.fills.map fun f => if f.1 == q && f.2.1 == m.serial && f.2.2.1 == m.slot then (f.1, f.2.1, f.2.2.1, true) else f })
  else (m, k)

/-- One packet of a GET, PUT or RING_FEED. [DEDUCED: log 23, 115] -/
def issuePacket (c q : Nat) (m : MoverCmd) (s : State) : State :=
  let w := m.cmd.word
  let k := s.core c
  let put := w.opcode == 0x61
  let p := m.nextPacket
  let loc := m.localAddr k
  let finish (m1 : MoverCmd) (ps : List Packet) (t : State) : State :=
    let r := closeFill q m1 (t.core c)
    t.setCore c { setHead r.2 q r.1 with packets := r.2.packets ++ ps }
  let base : Packet := { queue := q, serial := m.serial, read := !put, global := p.1, local_ := loc, len := p.2, block := m.slot }
  let bytes := s.sys.spadRead c loc p.2
  let marks := (List.range p.2).map fun i => s.sys.spadPoison c (loc + i) 1
  match s.sys.target p.1 with
  | .refused cls =>
    let s1 := s.onSys fun y =>
      let d := moverDetail k q p.1 y
      d.2.fault cls UnitCode.mover c w.tag d.1
    finish (m.past p.2) [{ base with data := some (List.replicate p.2 0), poison := true }] s1
  | .here a =>
    if put && s.refreshing a then s
    else
    let s1 := if put && regionOf a != .control then s.landWrite a bytes marks else s
    finish (m.past p.2) [base] s1
  | .remote node a =>
    let parts := gather s.sys k node (128 - k.packets.length) m p.1 0
    let total := (parts.map fun e => e.2.1).foldl (· + ·) 0
    let m1 := parts.foldl (fun x e => x.past e.2.1) m
    let pkts := parts.map fun e => { base with global := e.1, len := e.2.1, local_ := e.2.2, remote := some s.net.nextReq }
    let data := parts.flatMap fun e => s.sys.spadRead c e.2.2 e.2.1
    let poison := parts.any fun e => s.sys.spadPoison c e.2.2 e.2.1
    if s.reachable node then
      let pk : FabricPacket :=
        if put then { kind := 0x03, addr := a, reqId := s.net.nextReq % 2 ^ 32, body := data, poison := poison }
        else { kind := 0x01, addr := a, reqId := s.net.nextReq % 2 ^ 32, body := bytesBE 4 total }
      let req : RemoteRequest :=
        { id := s.net.nextReq, node := node, core := c, tag := w.tag, read := !put,
          seq := (s.net.flow node).next + BitVec.ofNat 32 (s.net.flow node).waiting.length }
      finish m1 pkts ((s.onNet fun n => { n with requests := n.requests ++ [req], nextReq := n.nextReq + 1 }).sendFlow node pk)
    else
      let failed := pkts.map fun e => { e with data := some (List.replicate e.len 0), poison := true, failed := true }
      finish m1 failed (s.onSys fun y =>
        let d := moverDetail k q p.1 y
        d.2.fault Cls.REMOTE_FAIL UnitCode.mover c w.tag d.1)

/-- The valid word of the packet's address, when it lies in this module, is found uncorrectable. [DESIGN CHOICE: log 25] -/
def packetValidUe (c : Nat) (m : MoverCmd) (s : State) : State :=
  match s.sys.target m.nextPacket.1 with
  | .here a => validUe a UnitCode.mover c m.cmd.word.tag s
  | _ => s

/-- The head command of a queue issues its next packet, or a multicast step (R345: at most 128 packets in flight). `bad` tells
that the valid word of its address is uncorrectable. [DEDUCED: log 112] -/
def moverPacketIssue (c q : Nat) (bad : Bool) (s : State) : State :=
  let k := s.core c
  match moverQueue k q with
  | [] => s
  | m :: _ =>
    if !s.coreLive c || decide (128 ≤ k.packets.length) then s
    else if m.cmd.word.opcode == 0x62 then
      if m.filling || decide (m.cmd.word.steps ≤ m.step) then s else mcastStep c q m s
    else if m.mayIssue then issuePacket c q m (if bad then packetValidUe c m s else s)
    else s

/-- First packet of a queue that satisfies a test, and the others. -/
def takePacket (p : Packet → Bool) : List Packet → Option (Packet × List Packet)
  | [] => none
  | x :: rest => if p x then some (x, rest) else (takePacket p rest).map fun r => (r.1, x :: r.2)

/-- Does a write of these bytes wait for a context transfer? A read of them waits behind it (R28, R342). -/
def State.writeWaits (s : State) (a n : Nat) : Bool :=
  s.sessions.deferred.any fun w => decide (w.1 < a + n ∧ a < w.1 + w.2.1.length)

/-- The oldest read of a queue lands in the scratchpad (R347, R349). `errs` are errors its first word meets; `host` are
the bytes of host memory when it reads the host window. [DEDUCED: log 115; DESIGN CHOICE: log 24] -/
def moverReadResponse (c q : Nat) (errs : ReadErrors) (host : List Byte) (s : State) : State :=
  let k := s.core c
  match takePacket (fun p => p.queue == q && p.read && (p.remote.isNone || p.data.isSome)) k.packets with
  | none => s
  | some (p, rest) =>
    if !s.coreLive c || (p.data.isNone && (s.refreshing (p.global % 2 ^ 46) || s.writeWaits (p.global % 2 ^ 46) p.len)) then s
    else
      let tag := match moverQueue k q with | m :: _ => m.cmd.word.tag | [] => 0
      let s0 := s.setCore c { k with packets := rest }
      let s1 := match p.data with
        | some d => s0.onSys (spadMarked c p.local_ d (List.replicate p.len p.poison))
        | none =>
          let a := p.global % 2 ^ 46
          match s.sys.localFault a with
          | some cls => (s0.onSys fun y =>
              let d := moverDetail k q p.global y
              d.2.fault cls UnitCode.mover c tag d.1).onSys
              (spadMarked c p.local_ (List.replicate p.len 0) (List.replicate p.len true))
          | none =>
          match regionOf a with
          | .host => s0.onSys (spadMarked c p.local_ ((List.range p.len).map fun i => host.getD i 0) [])
          | .control =>
            let f := freeBytes p.len s0.sys
            { s0 with sys := spadMarked c p.local_ f.1 [] f.2 }
          | _ =>
            let r := readProtected a p.len errs UnitCode.mover c tag s0
            r.2.2.onSys (spadMarked c p.local_ r.1 r.2.1)
      retireMove c q s1

/-- The oldest write of a queue is acknowledged by its destination (R347, R358, R359). [DEDUCED: log 115] -/
def moverWriteAck (c q : Nat) (s : State) : State :=
  let k := s.core c
  match takePacket (fun p => p.queue == q && !p.read && (p.remote.isNone || p.data.isSome)) k.packets with
  | none => s
  | some (_, rest) =>
    if !s.coreLive c then s
    else
      let s0 := s.setCore c { k with packets := rest }
      let s1 := match moverQueue k q with
        | m :: _ =>
          if m.cmd.word.opcode == 0x62 then
            (mcastDone c m s0).onCore c fun x => setHead x q { m with filling := false }
          else s0
        | [] => s0
      retireMove c q s1

/-! ### Fills (R355, R360) -/

/-- The command of a pull of block `b` of a group: slot-size bytes from the backing region. [DEDUCED: log 116] -/
def pullWord (gaddr slotKib ring : Nat) : Cmd :=
  BitVec.ofNat 1024 (0x63 + 2 ^ (8 * 4 + 12) + slotKib * 2 ^ (8 * 8) + gaddr * 2 ^ (8 * 80) + 1024 * 2 ^ (8 * 88) + 1024 * 2 ^ (8 * 112)
    + ring * 2 ^ (8 * 116))

/-- Start of a fill (R355): the previous fill of the command has issued its last request, and F − H < LEAD. A dropped
member starts the pull of its next block, in a queue numbered after the ring. [DEDUCED: log 116] -/
def ringFillStart (c r : Nat) (s : State) : State :=
  let k := s.core c
  let x := k.ring r
  if !s.coreLive c || !x.enabled || decide (x.lead ≤ (x.fillCount - x.head).toNat) then s
  else
    let start (q : Nat) (m : MoverCmd) (k1 : Core) (x1 : StreamRing) : Core :=
      let slot := x.fill.toNat
      setHead (k1.setRing r { x1 with fill := x1.fill + 1, fills := x1.fills ++ [(q, m.serial, slot, false)] }) q
        { m with filling := true, slot := slot }
    match x.pulls with
    | some (key, b) =>
      if (s.mgroup key).blocks ≤ b || !(moverQueue k (4 + r)).isEmpty then s
      else
        match s.groupEntry (key / 1024) with
        | none => s
        | some e =>
          let cluster := s.clusterOf s.job.qset (s.imgNat (e + 3) 1)
          let g := s.sys.node * 2 ^ 46 + peatBase cluster + s.imgNat (e + 4) 4 + b * x.slotKib * 1024
          let m : MoverCmd := { cmd := { word := pullWord g x.slotKib r }, serial := k.serial }
          let k1 := setMoverQueue { k with serial := k.serial + 1 } (4 + r) [m]
          s.setCore c (start (4 + r) m k1 { x with pulls := some (key, b + 1) })
    | none =>
      match (List.range 4).find? fun q => match moverQueue k q with
          | m :: _ => m.cmd.word.opcode == 0x63 && m.cmd.word.feedRing == r && !m.filling && decide (m.step < m.cmd.word.steps)
          | [] => false with
      | none => s
      | some q =>
        match moverQueue k q with
        | m :: _ => s.setCore c (start q m k x)
        | [] => s

/-- A fill commits when its writes have landed and every earlier fill of the ring has committed (R355). -/
def ringFillCommit (c r : Nat) (s : State) : State :=
  let k := s.core c
  let x := k.ring r
  match x.fills with
  | [] => s
  | f :: rest =>
    if !s.coreLive c || !f.2.2.2 || k.packets.any (fun p => p.queue == f.1 && p.serial == f.2.1 && p.block == f.2.2.1) then s
    else (retireMove c f.1 (s.setCore c (k.setRing r { x with tail := x.tail + 1, fills := rest }))).happen

end Sys2Proof.Machine
end

