-- ==== Sys2Proof/Machine/SignalUnit.lean ====
section
/-! DEFINITION. The Signal Unit: its memories and registers, bundles and their slots, loops, branches, interrupts, and the
SIG commands (R313 to R339). One slot of the current bundle executes per command; its writes land when its pipeline says. -/

namespace Sys2Proof.Machine

/-! ### Registers and memories -/

def State.onSu (s : State) (c : Nat) (f : SignalUnit → SignalUnit) : State := s.onCore c fun k => { k with su := f k.su }

def SignalUnit.bank (u : SignalUnit) : Nat := u.handler.toNat
def SignalUnit.getD (u : SignalUnit) (i : Nat) : BitVec 32 × Bool := mapGet (fun _ => ((0 : BitVec 32), false)) (u.bank * 16 + i) u.d
def SignalUnit.getP (u : SignalUnit) (i : Nat) : BitVec 16 := mapGet (fun _ => (0 : BitVec 16)) (u.bank * 8 + i) u.p
def SignalUnit.getM (u : SignalUnit) (i : Nat) : BitVec 16 := mapGet (fun _ => (0 : BitVec 16)) (u.bank * 8 + i) u.m
def SignalUnit.getB (u : SignalUnit) (i : Nat) : BitVec 16 := mapGet (fun _ => (0 : BitVec 16)) i u.b
def SignalUnit.getL (u : SignalUnit) (i : Nat) : BitVec 16 := mapGet (fun _ => (0 : BitVec 16)) i u.l
def accDefault (_ : Nat) : Int × Bool := (0, false)
def SignalUnit.getAcc (u : SignalUnit) (i : Nat) : Int × Bool := mapGet accDefault (u.bank * 4 + i) u.acc
def SignalUnit.getFlags (u : SignalUnit) : Nat × Bool := mapGet (fun _ => (0, false)) u.bank u.flags

def zeroByte (_ : Nat) : Byte := 0
def memByte (m : SMap Byte) (a : Nat) : Byte := mapGet zeroByte a m
def memPut (m : SMap Byte) (a : Nat) (b : Byte) : SMap Byte := mapSet zeroByte a b m

def readBytes (m : SMap Byte) (size a n : Nat) : List Byte := (List.range n).map fun i => memByte m ((a + i) % size)
def writeBytes (m : SMap Byte) (size a : Nat) (bs : List Byte) : SMap Byte :=
  (List.range bs.length).foldl (fun x i => memPut x ((a + i) % size) (bs.getD i 0)) m

/-- Poison of X or Y words after a write of bytes with their marks (R314, R510). -/
def suPoison (m : SMap Bool) (a : Nat) (marks : List Bool) : SMap Bool :=
  (List.range marks.length).foldl (fun x i =>
    let w := (a + i) % 65536 / 8
    let whole := decide (a ≤ a + i - (a + i) % 8) && decide (a + i - (a + i) % 8 + 8 ≤ a + marks.length)
    let start := (a + i) % 8 == 0
    flagPut x w ((if whole && start then false else flagAt x w) || marks.getD i false)) m

/-- Valid bits of X or Y lines after a write of `n` bytes (R497): one bit per 64-B line. -/
def suLines (m : SMap Bool) (a n : Nat) : SMap Bool :=
  (List.range ((a % 64 + n + 63) / 64)).foldl (fun x i => flagPut x ((a / 64 + i) % 1024) true) m

/-- Does the checker run for a read of X (0), Y (1) or the program and coefficient memory? A line never written reads as zeros (R497). -/
def SignalUnit.checked (u : SignalUnit) (space a : Nat) : Bool :=
  match space with
  | 0 => flagAt u.xValid (a % 65536 / 64)
  | 1 => flagAt u.yValid (a % 65536 / 64)
  | _ => true

def SignalUnit.storeX (u : SignalUnit) (a : Nat) (bs : List Byte) (marks : List Bool) : SignalUnit :=
  { u with x := writeBytes u.x 65536 a bs, xPoison := suPoison u.xPoison a marks, xValid := suLines u.xValid a bs.length }
def SignalUnit.storeY (u : SignalUnit) (a : Nat) (bs : List Byte) (marks : List Bool) : SignalUnit :=
  { u with y := writeBytes u.y 65536 a bs, yPoison := suPoison u.yPoison a marks, yValid := suLines u.yValid a bs.length }

/-! ### Faults (R314, R337) -/

/-- Tag of the SIG.START in progress. -/
def SignalUnit.tag (u : SignalUnit) : Nat := match u.port with | p :: _ => p.word.tag | [] => 0

/-- A Signal Unit fault: it halts, its record carries the PC and the slot (0 LS, 1 MAC, 2 ALU). -/
def suFault (c cls slot : Nat) (s : State) : State :=
  let u := (s.core c).su
  (s.onSys fun y => y.fault cls UnitCode.signalUnit c u.tag (u.pc + slot * 65536)).onSu c fun v => { v with running := false }

def suEcc (c : Nat) (s : State) : State := (suFault c Cls.SU_ECC 0 s).fenceCoreNow c

/-! ### Bundles (R317 to R323) -/

/-- A bundle's three slots as numbers. [DESIGN CHOICE: log 127] -/
structure Bundle where
  ls : Nat := 0
  mac : Nat := 0
  alu : Nat := 0
  deriving DecidableEq, Repr

def bundleAt (u : SignalUnit) (pc : Nat) (flips : List Nat) : Bundle :=
  let bs := applyFlips (secdedDecode flips).left (readBytes u.c 32768 (8 * pc) 8)
  let v := bytesToNat bs
  { ls := bitsOf v 44 20, mac := bitsOf v 22 22, alu := bitsOf v 0 22 }

def Bundle.lsOp (b : Bundle) : Nat := bitsOf b.ls 16 4
def Bundle.macOp (b : Bundle) : Nat := bitsOf b.mac 18 4
def Bundle.aluOp (b : Bundle) : Nat := bitsOf b.alu 16 6

def aluKnown (o : Nat) : Bool := decide (o ≤ 0x16) || decide (0x20 ≤ o ∧ o ≤ 0x24)

/-- Does the operation use pointer PB? -/
def lsTwo (o : Nat) : Bool := o == 3 || o == 10

/-- Slot of a bundle that SU_ILLEGAL names, if any (R318, R320, R321, R323, R326, R327). -/
def Bundle.illegal (b : Bundle) (u : SignalUnit) : Option Nat :=
  let am := bitsOf b.ls 0 2
  let lsBad := decide (11 ≤ b.lsOp) || (b.lsOp != 0 && am == 2 && (decide (4 ≤ bitsOf b.ls 5 3) || (lsTwo b.lsOp && decide (4 ≤ bitsOf b.ls 2 3))))
  let acc := bitsOf b.mac 16 2
  let macBad := decide (11 ≤ b.macOp) || ([4, 5, 6, 9].contains b.macOp && acc % 2 == 1)
  let mine := u.loops.filter fun l => l.handler == u.handler
  let isLoop := b.aluOp == 0x20 || b.aluOp == 0x21
  let last := u.pc + 1 + bitsOf b.alu 0 6
  let nearEnd := match mine with | l :: _ => decide (l.last < u.pc + 2) | [] => false
  let aluBad := !aluKnown b.aluOp || ((isLoop || b.aluOp == 0x22) && (decide (0 < u.delay) || nearEnd))
    || (isLoop && (decide (4 ≤ u.loops.length) || (match mine with | l :: _ => decide (l.last < last) | [] => false)))
  if lsBad then some 0 else if macBad then some 1 else if aluBad then some 2 else none

/-! ### Landing of writes (R324, R325, R334) -/

/-- Land one write; the answer's count is of accumulations that saturated (R322). -/
def landOne (x : SignalUnit × Nat) (w : SuWrite) : SignalUnit × Nat :=
  let u := x.1
  match w.kind with
  | 0 => ({ u with d := mapSet (fun _ => ((0 : BitVec 32), false)) (w.bank * 16 + w.idx) (BitVec.ofInt 32 w.val, w.poison) u.d }, x.2)
  | 1 => ({ u with p := mapSet (fun _ => (0 : BitVec 16)) (w.bank * 8 + w.idx) (BitVec.ofInt 16 w.val) u.p }, x.2)
  | 2 => ({ u with m := mapSet (fun _ => (0 : BitVec 16)) (w.bank * 8 + w.idx) (BitVec.ofInt 16 w.val) u.m }, x.2)
  | 3 => ({ u with b := mapSet (fun _ => (0 : BitVec 16)) w.idx (BitVec.ofInt 16 w.val) u.b }, x.2)
  | 4 => ({ u with l := mapSet (fun _ => (0 : BitVec 16)) w.idx (BitVec.ofInt 16 w.val) u.l }, x.2)
  | 5 => ({ u with acc := mapSet accDefault (w.bank * 4 + w.idx) (satSigned 40 w.val, w.poison) u.acc }, x.2)
  | 6 =>
    let old := mapGet accDefault (w.bank * 4 + w.idx) u.acc
    let v := satSigned 40 (old.1 + w.val)
    ({ u with acc := mapSet accDefault (w.bank * 4 + w.idx) (v, old.2 || w.poison) u.acc }, x.2 + (decide (v ≠ old.1 + w.val)).toNat)
  | 7 => ({ u with flags := mapSet (fun _ => (0, false)) w.bank (w.val.toNat, w.poison) u.flags }, x.2)
  | _ => ({ u with sticky := true }, x.2)

/-- Land the writes due by the end of cycle `t`, in order of issue. -/
def landUpTo (t : Nat) (u : SignalUnit) : SignalUnit × Nat :=
  let due := sortBy (fun a b => decide (a.at_ < b.at_) || (a.at_ == b.at_ && decide (a.order ≤ b.order))) (u.writes.filter fun w => decide (w.at_ ≤ t))
  due.foldl landOne ({ u with writes := u.writes.filter fun w => decide (t < w.at_) }, 0)

/-- Queue a write of the current bundle. [DEDUCED: log 135] -/
def SignalUnit.later (u : SignalUnit) (delay kind idx : Nat) (v : Int) (poison : Bool) : SignalUnit :=
  { u with writes := u.writes ++ [{ at_ := u.cycle + delay, order := u.order, bank := u.bank, kind := kind, idx := idx, val := v, poison := poison }] }

/-! ### The port (R329 to R331) -/

/-- What a SIG.XFER reads from X (`y` false) or Y memory at a step: bytes and their poison, and the state with what the checker reported.
An uncorrectable word poisons the bytes moved from it (R314). -/
def xferRead (c : Nat) (p : PortCmd) (y : Bool) (n a len : Nat) (s : State) : List Byte × List Bool × State :=
  let u := (s.core c).su
  let mem := if y then u.y else u.x
  let marks := if y then u.yPoison else u.xPoison
  let o := secdedDecode (if n = 0 && u.checked y.toNat a then p.flips else [])
  let first := applyFlips o.left (readBytes mem 65536 (a / 8 * 8) 8)
  let inFirst (i : Nat) : Bool := decide (a % 8 + i < 8)
  let byte (i : Nat) : Byte := if inFirst i then first.getD (a % 8 + i) 0 else memByte mem ((a + i) % 65536)
  let mark (i : Nat) : Bool := flagAt marks ((a + i) % 65536 / 8) || (o.bad && inFirst i)
  let s1 := if o.corrected then s.onSys fun z => z.countLocal Cls.CE_SU 1 else s
  let s2 := if o.bad then
      s1.onSys fun z => z.fault Cls.MEM_UE UnitCode.signalUnit c p.word.tag (a / 8 * 8 + y.toNat * 65536) else s1
  ((List.range len).map byte, (List.range len).map mark, s2)

/-- SIG.XFER, one step: bytes and their poison between scratchpad and a Signal Unit memory. -/
def xferStep (c : Nat) (p : PortCmd) (s : State) (n : Nat) : State :=
  let w := p.word
  let len := w.param 4 0 16
  let a := (w.param 2 0 16 / 2 * 2 + n * len) % 65536
  let src := p.addr 1 n
  let bytes := s.sys.spadRead c src len
  let marks := (List.range len).map fun i => s.sys.spadPoison c (src + i) 1
  match w.param 0 0 8 with
  | 0 => s.onSu c fun v => v.storeX a bytes marks
  | 1 => s.onSu c fun v => v.storeY a bytes marks
  | 2 => let r := xferRead c p false n a len s; r.2.2.onSys (spadMarked c (p.addr 0 n) r.1 r.2.1)
  | 3 => let r := xferRead c p true n a len s; r.2.2.onSys (spadMarked c (p.addr 0 n) r.1 r.2.1)
  | _ => s.onSu c fun v => { v with c := writeBytes v.c 32768 a bytes }

/-- Start of a program (R329). -/
def startProgram (p : PortCmd) (u : SignalUnit) : SignalUnit :=
  let args := (List.range 8).flatMap fun j => natToBytes 4 (p.word.param (4 + 4 * j) 0 32)
  { u.storeX 0 args (List.replicate 32 false) with
    running := true, started := true, issued := false, handler := false, sinceRti := true, sticky := false, loops := [],
    pc := p.word.param 0 0 12, run := 0, delay := 0, target := none, done := 0, halting := false, returning := false, skipTo := none }

/-- The port's first command starts; transfers run at once (R330). -/
def settleSu (c : Nat) : Nat → State → State
  | 0, s => s
  | n + 1, s =>
    let k := s.core c
    match k.su.port with
    | [] => s
    | p :: rest =>
      if k.su.started then s
      else if p.word.opcode = 0x80 then s.onSu c (startProgram p)
      else
        let s1 := (List.range p.word.steps).foldl (xferStep c p) s
        settleSu c n (s1.onCore c fun x => { x.complete p.word with su := { x.su with port := rest } })

def suRoom (k : Core) (_ : Cmd) : Bool := decide (k.su.port.length < 2)

def enterSu (c : Nat) (p : PortCmd) (s : State) : State :=
  settleSu c 2 ((vecRun c s).onSu c fun u => { u with port := u.port ++ [p] })

/-- SIG.START (R329). -/
def sigStart (i : Issue) (s : State) : State :=
  s.issueCmd i 0x80 UnitCode.signalUnit (fun w => commonOk w true 0 0 0 && decide (w.param 0 0 16 < 4096)) suRoom fun p t => enterSu i.core.toNat p t

def xferLegal (w : Cmd) : Bool :=
  let dir := w.param 0 0 8
  let len := w.param 4 0 16
  let out := dir == 2 || dir == 3
  commonOk w false (if out then 1 else 0) (if out then 0 else 1) 0 && decide (dir ≤ 4) && decide (2 ≤ len ∧ len ≤ 4096) && len % 2 == 0
    && (dir != 4 || (w.param 2 0 16 % 8 == 0 && len % 8 == 0))

/-- Does a transfer to program memory touch the runtime's half (R315)? -/
def touchesRuntime (w : Cmd) : Bool :=
  let len := w.param 4 0 16
  (List.range w.steps).any fun n =>
    let a := (w.param 2 0 16 + n * len) % 32768
    decide (a < 0x4000) || decide (32768 < a + len)

/-- SIG.XFER (R315, R330). -/
def sigXfer (i : Issue) (s : State) : State :=
  let c := i.core.toNat
  match s.current i with
  | none => s
  | some w =>
    if w.opcode == 0x81 && !i.ecc && xferLegal w && w.param 0 0 8 == 4 && (s.core c).inJob && touchesRuntime w then
      s.cmdFault Cls.MODE UnitCode.signalUnit c w.tag 0
    else s.issueCmd i 0x81 UnitCode.signalUnit xferLegal suRoom fun p t => enterSu c { p with flips := i.flips } t

/-- SIG.IRQ (R332). -/
def sigIrq (i : Issue) (s : State) : State :=
  s.issueCmd i 0x82 UnitCode.signalUnit (fun w => commonOk w true 0 0 0 && decide (w.param 0 0 8 ≤ 3)) alwaysRoom fun p t =>
    t.onCore i.core.toNat fun k =>
      { k.complete p.word with su := { k.su with pending := k.su.pending ||| (1#4 <<< p.word.param 0 0 8) } }

/-! ### The end of a bundle (R326 to R328, R329, R335) -/

/-- Loops left by a branch to `a`: the outer ones whose bodies hold it. A handler's branch leaves the interrupted code's loops (R335). [DEDUCED: log 134] -/
def loopsAfterBranch (a : Nat) : List SuLoop → List SuLoop
  | [] => []
  | l :: rest =>
    let outer := loopsAfterBranch a rest
    if outer.length = rest.length ∧ l.first ≤ a ∧ a ≤ l.last then l :: outer else outer

/-- Next bundle after a body's last one. [DEDUCED: log 134] -/
def loopNext (handler : Bool) (pc : Nat) : List SuLoop → Nat × List SuLoop
  | [] => (pc + 1, [])
  | l :: rest =>
    if l.last = pc ∧ l.handler = handler then
      if 1 < l.left then (l.first, { l with left := l.left - 1, cached := true } :: rest) else loopNext handler pc rest
    else (pc + 1, l :: rest)

/-- Does the bundle issue from the loop cache (R328, R335)? -/
def SignalUnit.fromCache (u : SignalUnit) : Bool := !u.handler && u.loops.any fun l => l.cached && !l.handler

/-- Every slot of the bundle has executed: time moves on, writes land, and the next bundle is chosen. [DESIGN CHOICE: log 127] -/
def endBundle (c : Nat) (b : Bundle) (s : State) : State :=
  let u := (s.core c).su
  let frozen := (b.lsOp == 9 || b.lsOp == 10) && !u.fromCache
  let r := if u.halting then landUpTo (u.cycle + 3) u else landUpTo u.cycle u
  let v := { r.1 with cycle := u.cycle + 1, order := u.order + 1, run := u.run + 1 + frozen.toNat, done := 0, issued := true, sinceRti := true }
  let s1 := s.onSys fun y => y.countLocal Cls.SU_ACC_SAT r.2
  if u.halting then
    settleSu c 2 (s1.onCore c fun k =>
      let k1 := match v.port with | p :: _ => k.complete p.word | [] => k
      { k1 with su := { v with running := false, started := false, halting := false, loops := [], port := v.port.drop 1 } })
  else
    s1.onSu c fun _ =>
      if u.returning then
        -- no bundle after the RTI issues in the handler: a branch or a skip that it still owes goes with it (R335)
        { v with
          pc := v.savedPc, handler := false, returning := false, sinceRti := false, loops := v.loops.filter fun l => !l.handler,
          delay := 0, target := none, skipTo := none }
      else
        let d := v.delay - 1
        match (if v.delay = 1 then v.target else none), v.skipTo with
        | some a, _ =>
          { v with
            pc := a, delay := d, target := none,
            loops := loopsAfterBranch a (v.loops.filter fun l => l.handler == v.handler) ++ v.loops.filter fun l => l.handler != v.handler }
        | none, some a =>
          let n := loopNext v.handler a v.loops
          { v with pc := n.1 % 4096, loops := n.2, delay := d, skipTo := none }
        | none, none =>
          let n := loopNext v.handler v.pc v.loops
          { v with pc := n.1 % 4096, loops := n.2, delay := d }

/-- Have all slots of the bundle executed? -/
def SignalUnit.bundleDone (u : SignalUnit) (b : Bundle) : Bool :=
  (b.lsOp == 0 || u.done.getLsbD 0) && (b.macOp == 0 || u.done.getLsbD 1) && (b.aluOp == 0 || u.done.getLsbD 2)

def suLimit : Nat := 1048576

/-- Execute slot `slot` of the current bundle when its operation is `op`; `run` gives the slot's effect. A bundle whose three
slots are NOP executes by SU_NOP (`op` 0). [DESIGN CHOICE: log 127] -/
def suSlot (i : SuIssue) (slot op : Nat) (run : Bundle → State → State) (s : State) : State :=
  let c := i.core.toNat
  let u := (s.core c).su
  if !s.coreLive c || !u.running || decide (suLimit ≤ u.run) then s
  else if (secdedDecode i.fetch).bad then suEcc c s
  else
    let s0 := if (secdedDecode i.fetch).corrected then s.onSys fun y => y.countLocal Cls.CE_SU 1 else s
    let b := bundleAt u u.pc i.fetch
    let mine := match slot with | 0 => b.lsOp | 1 => b.macOp | _ => b.aluOp
    let empty := b.lsOp == 0 && b.macOp == 0 && b.aluOp == 0
    match (if u.done = 0 then b.illegal u else none) with
    | some k => suFault c Cls.SU_ILLEGAL k s0
    | none =>
      if op = 0 then (if empty then endBundle c b s0 else s)
      else if mine ≠ op || u.done.getLsbD slot then s
      else
        let s1 := (run b s0).onSu c fun v => { v with done := v.done ||| (1#3 <<< slot) }
        if (s1.core c).su.running && (s1.core c).su.bundleDone b then endBundle c b s1 else s1

/-- SU_NOP: a bundle of three NOPs. -/
def suNop (i : SuIssue) (s : State) : State := suSlot i 0 0 (fun _ t => t) s

/-! ### Load and store slot (R318 to R320) -/

/-- Address used and pointer afterwards (R319, R320). -/
def suAddress (u : SignalUnit) (i am : Nat) : Nat × Option Nat :=
  let p := (u.getP i).toNat
  let m := (u.getM i).toInt
  match am with
  | 0 => (p, none)
  | 1 => (p, some (((p : Int) + m) % 65536).toNat)
  | 2 =>
    let l := (u.getL i).toNat
    if l = 0 then (p, some (((p : Int) + m) % 65536).toNat)
    else
      let o : Int := (((p + 65536 - (u.getB i).toNat) % 65536 : Nat) : Int) + m
      let o1 := if (l : Int) ≤ o then o - l else if o < 0 then o + l else o
      (p, some ((((u.getB i).toNat : Int) + o1) % 65536).toNat)
  | _ => ((((p : Int) + m) % 65536).toNat, none)

def postModify (i : Nat) (after : Option Nat) (u : SignalUnit) : SignalUnit :=
  match after with | some v => u.later 0 1 i v false | none => u

/-- What a load reads: value of `n` bytes, poison, and the state with what the checker reported. Space 0 X, 1 Y, 2 C. -/
def suRead (c space a n : Nat) (flips : List Nat) (s : State) : Nat × Bool × Bool × State :=
  let u := (s.core c).su
  let size := if space = 2 then 32768 else 65536
  let w := a / 8 * 8 % size
  let o := secdedDecode (if u.checked space a then flips else [])
  let mem := match space with | 0 => u.x | 1 => u.y | _ => u.c
  let bytes := applyFlips o.left (readBytes mem size w 8)
  let v := bytesToNat ((bytes.drop (a % 8)).take n)
  let mark := match space with | 0 => flagAt u.xPoison (w / 8) | 1 => flagAt u.yPoison (w / 8) | _ => false
  let s1 := if o.corrected then s.onSys fun y => y.countLocal Cls.CE_SU 1 else s
  let s2 := if o.bad && space != 2 then s1.onSys fun y => y.fault Cls.MEM_UE UnitCode.signalUnit c u.tag (w + space * 65536) else s1
  (v, mark || (o.bad && space != 2), o.bad && space == 2, s2)

/-- One register loaded from one memory. -/
def suLoad (i : SuIssue) (space n : Nat) (b : Bundle) (s : State) : State :=
  let c := i.core.toNat
  let u := (s.core c).su
  let pa := bitsOf b.ls 5 3
  let ad := suAddress u pa (bitsOf b.ls 0 2)
  let r := suRead c space (ad.1 / n * n) n i.first s
  if r.2.2.1 then suEcc c r.2.2.2
  else
    r.2.2.2.onSu c fun v =>
      postModify pa ad.2 (v.later 2 0 (bitsOf b.ls 12 4) (if n = 2 then toSigned 16 r.1 else toSigned 32 r.1) r.2.1)

/-- LDXY and LDXC: DA from X, DB from Y or coefficient memory. Both into one register give a free value. [DEDUCED: log 131] -/
def suLoadTwo (i : SuIssue) (space : Nat) (b : Bundle) (s : State) : State :=
  let c := i.core.toNat
  let u := (s.core c).su
  let pa := bitsOf b.ls 5 3
  let pb := bitsOf b.ls 2 3
  let am := bitsOf b.ls 0 2
  let da := bitsOf b.ls 12 4
  let db := bitsOf b.ls 8 4
  let aa := suAddress u pa am
  let ab := suAddress u pb am
  let ra := suRead c 0 (aa.1 / 4 * 4) 4 i.first s
  let rb := suRead c space (ab.1 / 4 * 4) 4 i.second ra.2.2.2
  if rb.2.2.1 then suEcc c rb.2.2.2
  else
    let free := rb.2.2.2.sys.draw 32
    let s1 := if da = db then { rb.2.2.2 with sys := free.2 } else rb.2.2.2
    s1.onSu c fun v =>
      let v1 := if da = db then v.later 2 0 da free.1.toInt (ra.2.1 || rb.2.1)
        else (v.later 2 0 da (toSigned 32 ra.1) ra.2.1).later 2 0 db (toSigned 32 rb.1) rb.2.1
      postModify pb ab.2 (postModify pa aa.2 v1)

/-- A store; sticky poison marks it (R336). -/
def suStore (i : SuIssue) (y : Bool) (n : Nat) (b : Bundle) (s : State) : State :=
  s.onSu i.core.toNat fun u =>
    let pa := bitsOf b.ls 5 3
    let ad := suAddress u pa (bitsOf b.ls 0 2)
    let r := u.getD (bitsOf b.ls 12 4)
    let bs := natToBytes n r.1.toNat
    let marks := List.replicate n (r.2 || u.sticky)
    let u1 := if y then u.storeY (ad.1 / n * n) bs marks else u.storeX (ad.1 / n * n) bs marks
    postModify pa ad.2 u1

/-! ### MAC slot (R321, R322) -/

def lo16 (v : BitVec 32) : Int := toSigned 16 v.toNat
def hi16 (v : BitVec 32) : Int := toSigned 16 (v.toNat / 65536)

/-- (re, im) of A × B, or of A × conj(B). -/
def cmul (conj : Bool) (a b : BitVec 32) : Int × Int :=
  let bi := if conj then -(hi16 b) else hi16 b
  (lo16 a * lo16 b - hi16 a * bi, lo16 a * bi + hi16 a * lo16 b)

def cadd (a b : Int × Int) : Int × Int := (a.1 + b.1, a.2 + b.2)

/-- One accumulator write of a MAC slot: the accumulator, whether it is set or added to, the value, and whose poison it takes:
0 that of DA and DB, 1 of all four sources, 2 of DC and DD, 3 of DA (R336). [DEDUCED: log 136] -/
structure MacWrite where
  acc : Nat
  set : Bool
  val : Int
  srcs : Nat
  deriving DecidableEq, Repr

/-- A MAC slot: `f` gives its writes from the ACC field and the four registers. [DEDUCED: log 136] -/
def suMac (i : SuIssue) (f : Nat → BitVec 32 → BitVec 32 → BitVec 32 → BitVec 32 → List MacWrite) (b : Bundle) (s : State) : State :=
  s.onSu i.core.toNat fun u =>
    let r (lo : Nat) : BitVec 32 × Bool := u.getD (bitsOf b.mac lo 4)
    let pAB := (r 12).2 || (r 8).2
    let pCD := (r 4).2 || (r 0).2
    (f (bitsOf b.mac 16 2) (r 12).1 (r 8).1 (r 4).1 (r 0).1).foldl (fun v e =>
      v.later 2 (if e.set then 5 else 6) e.acc e.val (match e.srcs with | 0 => pAB | 1 => pAB || pCD | 2 => pCD | _ => (r 12).2)) u

def macPlain (acc : Nat) (set : Bool) (v : Int) : List MacWrite := [⟨acc, set, v, 0⟩]
def macPair (acc : Nat) (set : Bool) (v : Int × Int) (srcs : Nat) : List MacWrite := [⟨acc, set, v.1, srcs⟩, ⟨acc + 1, set, v.2, srcs⟩]

/-! ### ALU slot (R323) -/

/-- Flag code Z + 2N + 4V. -/
def flagCode (z n v : Bool) : Int := ((z.toNat + 2 * n.toNat + 4 * v.toNat : Nat) : Int)

/-- FLAGS of an exact 32-bit arithmetic result, as CMP sets them. [DEDUCED: log 128] -/
def exactFlags (v : Int) : Int :=
  let w := toSigned 32 (ofSigned 32 v)
  flagCode (decide (v = 0)) (decide (w < 0)) (decide (w ≠ v))

/-- An ALU operation with two register sources: result for DST and FLAGS, each optional. [DEDUCED: log 128, 129] -/
def suAlu (i : SuIssue) (f : BitVec 32 → BitVec 32 → Option Int × Option Int) (b : Bundle) (s : State) : State :=
  s.onSu i.core.toNat fun u =>
    let x := u.getD (bitsOf b.alu 8 4)
    let y := u.getD (bitsOf b.alu 0 4)
    let p := x.2 || y.2
    let r := f x.1 y.1
    let u1 := match r.1 with | some v => u.later 0 0 (bitsOf b.alu 12 4) v p | none => u
    match r.2 with | some v => u1.later 0 7 0 v p | none => u1

/-- An ALU operation with the source A alone. -/
def suAluOne (i : SuIssue) (f : BitVec 32 → Option Int × Option Int) (b : Bundle) (s : State) : State :=
  s.onSu i.core.toNat fun u =>
    let x := u.getD (bitsOf b.alu 8 4)
    let r := f x.1
    let u1 := match r.1 with | some v => u.later 0 0 (bitsOf b.alu 12 4) v x.2 | none => u
    match r.2 with | some v => u1.later 0 7 0 v x.2 | none => u1

/-- Result and flags of a saturating operation on the exact value. -/
def satResult (v : Int) : Option Int × Option Int := (some (satSigned 32 v), some (exactFlags v))

/-- ADD2 and SUB2: FLAGS are a free value, since the manual does not say how two halves set them. [DEDUCED: log 128] -/
def suHalves (i : SuIssue) (f : Int → Int → Int) (b : Bundle) (s : State) : State :=
  let free := s.sys.draw 3
  let halves (x y : BitVec 32) : Int :=
    toSigned 32 (ofSigned 16 (satSigned 16 (f (lo16 x) (lo16 y))) + 65536 * ofSigned 16 (satSigned 16 (f (hi16 x) (hi16 y))))
  suAlu i (fun x y => (some (halves x y), some free.1.toNat)) b { s with sys := free.2 }

/-- Value of an address register named in [7:0]; one that does not exist reads as a free value. [DEDUCED: log 130] -/
def suMovd (i : SuIssue) (b : Bundle) (s : State) : State :=
  let idx := bitsOf b.alu 0 3
  let cls := bitsOf b.alu 3 3
  let free := s.sys.draw 16
  let absent := (decide (2 ≤ cls) && decide (4 ≤ idx)) || decide (4 ≤ cls)
  let s1 := if absent then { s with sys := free.2 } else s
  s1.onSu i.core.toNat fun u =>
    let v := if absent then free.1 else match cls with | 0 => u.getP idx | 1 => u.getM idx | 2 => u.getB idx | _ => u.getL idx
    u.later 0 0 (bitsOf b.alu 12 4) v.toNat false

/-- MOVA: to an address register, from DST[15:0]. [DEDUCED: log 130] -/
def suMova (i : SuIssue) (b : Bundle) (s : State) : State :=
  s.onSu i.core.toNat fun u =>
    let idx := bitsOf b.alu 0 3
    let cls := bitsOf b.alu 3 3
    let v := (u.getD (bitsOf b.alu 12 4)).1.toNat % 65536
    if (decide (2 ≤ cls) && decide (4 ≤ idx)) || decide (4 ≤ cls) then u else u.later 1 (cls + 1) idx v false

/-- RND and RNDC. A pair that is not 0 or 2 gives a free value. [DEDUCED: log 129] -/
def suRnd (i : SuIssue) (b : Bundle) (s : State) : State :=
  s.onSu i.core.toNat fun u =>
    let a := u.getAcc (bitsOf b.alu 8 2)
    u.later 0 0 (bitsOf b.alu 12 4) (satSigned 32 (shiftRound a.1 (bitsOf b.alu 0 5))) a.2

/-- See the log. [DEDUCED: log 131] -/
def suRndc (i : SuIssue) (b : Bundle) (s : State) : State :=
  let n := bitsOf b.alu 8 2
  let free := s.sys.draw 32
  let s1 := if n % 2 = 1 then { s with sys := free.2 } else s
  s1.onSu i.core.toNat fun u =>
    let re := u.getAcc n
    let im := u.getAcc (n + 1)
    let part (v : Int) : Nat := ofSigned 16 (satSigned 16 (shiftRound v (bitsOf b.alu 0 5)))
    let v : Int := if n % 2 = 1 then free.1.toInt else toSigned 32 (part re.1 + 65536 * part im.1)
    u.later 0 0 (bitsOf b.alu 12 4) v (re.2 || im.2)

/-- MOVI: IMM12 sign-extended. -/
def suMovi (i : SuIssue) (b : Bundle) (s : State) : State :=
  s.onSu i.core.toNat fun u => u.later 0 0 (bitsOf b.alu 12 4) (toSigned 12 (bitsOf b.alu 0 12)) false

/-- ACCLD: accumulator DST[1:0] from A, sign-extended. -/
def suAccld (i : SuIssue) (b : Bundle) (s : State) : State :=
  s.onSu i.core.toNat fun u =>
    let a := u.getD (bitsOf b.alu 8 4)
    u.later 0 5 (bitsOf b.alu 12 2) a.1.toInt a.2

/-- CLRACC: the accumulators whose bits are set. [DEDUCED: log 129] -/
def suClracc (i : SuIssue) (b : Bundle) (s : State) : State :=
  s.onSu i.core.toNat fun u =>
    (List.range 4).foldl (fun v n => if b.alu.testBit n then v.later 0 5 n 0 false else v) u

/-- LOOP and LOOPD (R327). A count of 0 goes on as the last bundle of the body would. [DEDUCED: log 134] -/
def suLoop (i : SuIssue) (b : Bundle) (count : Nat) (s : State) : State :=
  s.onSu i.core.toNat fun u =>
    let len := bitsOf b.alu 0 6 + 1
    if count = 0 then { u with skipTo := some (u.pc + len) }
    else { u with loops := { first := u.pc + 1, last := u.pc + len, left := count, handler := u.handler } :: u.loops }

def suLoopImm (i : SuIssue) (b : Bundle) (s : State) : State := suLoop i b (bitsOf b.alu 6 10) s

/-- LOOPD: the count is SRC_A[15:0]. -/
def suLoopReg (i : SuIssue) (b : Bundle) (s : State) : State :=
  suLoop i b (((s.core i.core.toNat).su.getD (bitsOf b.alu 8 4)).1.toNat % 65536) s

/-- Does a branch condition hold? [DESIGN CHOICE: log 137] -/
def suCond (cond flags : Nat) : Bool :=
  let z := flags.testBit 0
  let lt := flags.testBit 1 != flags.testBit 2
  match cond with
  | 0 => true | 1 => z | 2 => !z | 3 => lt | 4 => !lt | 5 => !lt && !z | 6 => lt || z | _ => false

/-- BRA: two delay slots, then the target when the condition holds (R326); poisoned FLAGS make every later store poisoned, those of the
bundles after this one (R336). The manual gives no condition for codes 7 to
15: whether they hold is a free value. [DESIGN CHOICE: log 137] -/
def suBra (i : SuIssue) (b : Bundle) (s : State) : State :=
  let cond := bitsOf b.alu 12 4
  let go (holds : Nat → Bool) (s : State) : State :=
    s.onSu i.core.toNat fun u =>
      let f := u.getFlags
      let t := (((u.pc : Int) + toSigned 12 (bitsOf b.alu 0 12)) % 4096).toNat
      let u1 := if f.2 && cond != 0 then u.later 0 8 0 0 false else u
      { u1 with delay := 3, target := if holds f.1 then some t else none }
  if cond ≤ 6 then go (suCond cond) s
  else
    let d := s.sys.draw 1
    go (fun _ => d.1.getLsbD 0) { s with sys := d.2 }

/-- RTI in a handler returns; elsewhere it has nothing to return to and does nothing. [DESIGN CHOICE: log 132] -/
def suRti (i : SuIssue) (s : State) : State := s.onSu i.core.toNat fun u => { u with returning := u.handler }
/-- See the log. [DEDUCED: log 133] -/
def suHalt (i : SuIssue) (s : State) : State := s.onSu i.core.toNat fun u => { u with halting := true }

/-! ### Interrupts and the time limit -/

/-- A pending line is taken at a bundle boundary (R332, R333). -/
def suInterrupt (c : Nat) (s : State) : State :=
  let u := (s.core c).su
  match (List.range 4).find? fun n => u.pending.getLsbD n with
  | none => s
  | some n =>
    if s.coreLive c && u.running && u.issued && !u.handler && u.delay == 0 && u.done == 0 && u.sinceRti then
      s.onSu c fun v => { v with savedPc := v.pc, handler := true, pc := 0x800 + 16 * n, pending := v.pending &&& ~~~(1#4 <<< n) }
    else s

/-- SU_TIMEOUT: 1,048,576 bundles or frozen cycles without a halt (R329). [DEDUCED: log 135] -/
def suTimeout (c : Nat) (s : State) : State :=
  let u := (s.core c).su
  if s.coreLive c && u.running && decide (suLimit ≤ u.run) then suFault c Cls.SU_TIMEOUT 0 s else s

end Sys2Proof.Machine
end

