-- ==== Sys2Proof/Machine/Routines.lean ====
section
/-! DEFINITION. The ROM routines that SEQ.CALL runs (R213 to R217, R279, R280, R304, R305, R310). Rows of a tensor and
elements of a row stand at consecutive addresses. -/

namespace Sys2Proof.Machine

/-- Which operands must be present: 0 absent, 1 present. [DEDUCED: log 121] -/
def callOps (r0 r1 r2 : Nat) (p : PortCmd) : Bool := operandOk p.word 0 r0 && operandOk p.word 1 r1 && operandOk p.word 2 r2

/-- The status word a routine writes at ARG0 (R215). -/
def writeStatusWord (c : Nat) (p : PortCmd) (v : Nat) (s : State) : State :=
  s.onSys fun y => y.spadWrite c (p.word.arg 0 % 524288) (natToBytes 4 v) false

/-- A status whose coding the manual does not give: a free value. [DESIGN CHOICE: log 123] -/
def freeStatus (c : Nat) (p : PortCmd) (s : State) : State :=
  let f := s.sys.draw 32
  writeStatusWord c p f.1.toNat { s with sys := f.2 }

/-- Bytes from a scratchpad address with their poison. [DEDUCED: log 121] -/
def spadBytes (y : Sys) (c a n : Nat) : List Byte × List Bool :=
  (y.spadRead c a n, (List.range n).map fun i => y.spadPoison c (a + i) 1)

/-! ### Moves -/

def rtNop (i : Issue) (s : State) : State := callRoutine i 0x00 (fun _ p => callOps 0 0 0 p) (fun _ t => t) s

/-- RT_FILL: a fill of more than 512 KiB leaves what its last 512 KiB write. -/
def rtFill (i : Issue) (s : State) : State :=
  callRoutine i 0x01 (fun _ p => callOps 1 0 0 p) (fun p t =>
    let n := p.word.arg 1
    let pat := natToBytes 4 (p.word.arg 2)
    let skip := n - min n 524288
    t.onSys fun y =>
      y.spadWrite i.core.toNat (p.base0 + skip) ((List.range (n - skip)).map fun j => pat.getD ((skip + j) % 4) 0) false) s

def rtCopy (i : Issue) (s : State) : State :=
  callRoutine i 0x02 (fun _ p => callOps 1 1 0 p) (fun p t =>
    let skip := p.word.arg 1 - min (p.word.arg 1) 524288
    let b := spadBytes t.sys i.core.toNat (p.base1 + skip) (p.word.arg 1 - skip)
    t.onSys (spadMarked i.core.toNat (p.base0 + skip) b.1 b.2)) s

/-! ### Soft maximum (R279, R280) -/

/-- Outputs of one row: `xs` inputs, `ms` admitted entries. -/
def softmaxRow (ieee : Bool) (xs : List Num) (ms : List Bool) : List Num × Bool :=
  let es := xs.zip ms
  let adm := (es.filter fun e => e.2).map Prod.fst
  if adm.any Num.isNan then (xs.map fun _ => .nan, false)
  else
    let m := adm.foldl fmax (.inf true)
    if m = .inf false then
      let k := (adm.filter fun x => x == .inf false).length
      let v := fdiv ieee fone (.ofInt k)
      (es.map fun e => if e.2 && e.1 == .inf false then v else Num.zero, false)
    else if adm.isEmpty || m == .inf true then (xs.map fun _ => Num.zero, true)
    else
      let ev := es.map fun e => if e.2 then fexp ieee (fsub ieee e.1 m) else Num.zero
      let l := (treeReduce (fadd ieee) (some Num.zero) ev).getD Num.zero
      ((es.zip ev).map fun e => if e.1.2 then fdiv ieee e.2 l else Num.zero, false)

/-- Status with EMPTY_ROW and the number of such rows (R279). -/
def emptyStatus (n : Nat) : Nat := (decide (n ≠ 0)).toNat + min n 65535 * 65536

def rtSoftmaxRows (i : Issue) (s : State) : State :=
  let c := i.core.toNat
  callRoutine i 0x08
    (fun _ p => callOps 1 1 1 p && (p.word.opFmt 1 == 9 || p.word.opFmt 1 == 8) && p.word.opFmt 2 == 2
      && decide (1 ≤ p.word.arg 2 ∧ p.word.arg 2 ≤ 4096))
    (fun p t =>
      let len := p.word.arg 2
      let w := p.word
      let r := (List.range (w.arg 1)).foldl (fun (a : List (Num × Bool) × Nat) row =>
        let ins := (List.range len).map fun j => t.sys.elem c (w.opFmt 1) p.base1 (row * len + j)
        let ms := (List.range len).map fun j => t.sys.elem c 2 p.base2 (row * len + j)
        let o := softmaxRow t.ieee32 (ins.map fun e => readElem (w.opFmt 1) e.1) (ms.map fun e => e.1 != 0)
        let poison := ins.any Prod.snd || ms.any Prod.snd
        (a.1 ++ o.1.map fun x => (x, poison), a.2 + o.2.toNat)) ([], 0)
      let t1 := t.onSys fun y => y.writeElems c (w.opFmt 0) p.base0 (r.1.map fun e => (writeElem (w.opFmt 0) t.ieeeOpt e.1, e.2))
      writeStatusWord c p (emptyStatus r.2) (t1.noteNarrow c w.tag (w.opFmt 0) (r.1.map Prod.fst))) s

/-- F(a, b) of R280. -/
def deferFactor (ieee : Bool) (a b : Num) : Num := if feq a b then fone else fexp ieee (fsub ieee a b)

def rtDeferFix (i : Issue) (s : State) : State :=
  let c := i.core.toNat
  callRoutine i 0x09 (fun _ p => callOps 1 1 0 p && p.word.opFmt 1 == 9 && decide (1 ≤ p.word.arg 2)) (fun p t =>
    let w := p.word
    let len := w.arg 2
    let groups := (len + 63) / 64
    let fmt := w.opFmt 0
    let ieee := t.ieee32
    let pair (row g : Nat) : (Num × Num) × Bool :=
      let m := t.sys.elem c 9 (p.base1 + 8 * (row * groups + g)) 0
      let l := t.sys.elem c 9 (p.base1 + 8 * (row * groups + g)) 1
      ((ofFp32 m.1, ofFp32 l.1), m.2 || l.2)
    let r := (List.range (w.arg 1)).foldl (fun (a : List (Nat × Bool) × Nat) row =>
      let last := pair row (groups - 1)
      let empty := last.1.2.isZero
      let nan := last.1.1.isNan || last.1.2.isNan
      let outs := (List.range len).map fun j =>
        let old := t.sys.elem c fmt p.base0 (row * len + j)
        let pg := pair row (j / 64)
        let v : Num := if nan then .nan else if empty then Num.zero
          else fmul ieee (readElem fmt old.1) (fdiv ieee (deferFactor ieee pg.1.1 last.1.1) last.1.2)
        (writeElem fmt t.ieeeOpt v, old.2 || pg.2 || last.2)
      (a.1 ++ outs, a.2 + (empty && !nan).toNat)) ([], 0)
    writeStatusWord c p (emptyStatus r.2) (t.onSys fun y => y.writeElems c fmt p.base0 r.1)) s

/-! ### Scales (R304, R305, R309, R310) -/

def rtQscale (i : Issue) (s : State) : State :=
  let c := i.core.toNat
  callRoutine i 0x10
    (fun _ p => callOps 1 1 0 p && (qMax (p.word.arg 3)).isSome && p.word.opFmt 1 != 10 && decide (p.word.arg 2 ≤ 2)
      && (p.word.arg 2 != 1 || decide (1 ≤ p.word.arg 4)))
    (fun p t =>
      let w := p.word
      let n := w.arg 1
      let size := match w.arg 2 with | 0 => n | 1 => w.arg 4 | _ => 32
      let groups := if n = 0 then 0 else (n + size - 1) / size
      let place := if w.arg 3 = 2 then 8 else 4
      let r := (List.range groups).foldl (fun (a : Sys × List Nat) g =>
        let es := (List.range (min size (n - g * size))).map fun j => t.sys.elem c (w.opFmt 1) p.base1 (g * size + j)
        let v := groupScale (w.arg 3) (es.map fun e => readElem (w.opFmt 1) e.1)
        let bytes := natToBytes 4 (toFp32 v.1) ++ (if w.arg 3 = 2 then natToBytes 4 v.2.1 else [])
        (spadMarked c (p.base0 + place * g) bytes (List.replicate place (es.any Prod.snd)) a.1, if v.2.2 then a.2 ++ [g] else a.2)) (t.sys, [])
      let y := match r.2 with
        | [] => r.1
        | g :: _ => r.1.event Cls.DEGENERATE_RANGE [(2, 2, w.tag), (4, 2, c), (8, 4, r.2.length), (12, 4, g)]
      { t with sys := y }) s

/-- Does a tensor's count raise the alarm (R309)? -/
def scaleAlarm (sat unf count thresh : Nat) : Bool := decide (thresh * count < (sat + unf) * 65536) && count != 0

/-- s × MAX / q_max rounded once, when that is a positive, finite, normal FP32 value (R310). -/
def newScale (fmt scale max : Nat) : Option Nat :=
  let s := ofFp32 scale
  let m := ofFp32 max
  match qMax fmt, s, m with
  | some q, .fin false _ _, .fin false _ _ =>
    let n := s.mag.1 * m.mag.1
    let d := s.mag.2 * m.mag.2 * q
    if n = 0 then none
    else
      match fp32.round true false n d with
      | .fin _ _ _ =>
        let v := fp32.round true false n d
        if flt v minNormal then none else some (toFp32 v)
      | _ => none
  | _, _, _ => none

def rtRescale (i : Issue) (s : State) : State :=
  let c := i.core.toNat
  callRoutine i 0x11 (fun _ p => callOps 1 1 0 p) (fun p t =>
    t.onSys fun y => (List.range (p.word.arg 1)).foldl (fun z j =>
      let e := spadBytes z c (p.base0 + 8 * j) 8
      let k := spadBytes z c (p.base1 + 16 * j) 16
      let fmt := fieldAt e.1 4 1
      if scaleAlarm (fieldAt k.1 0 4) (fieldAt k.1 4 4) (fieldAt k.1 8 4) (fieldAt e.1 6 2) && fmt != 2 then
        match newScale fmt (fieldAt e.1 0 4) (fieldAt k.1 12 4) with
        | some v => spadMarked c (p.base0 + 8 * j) (natToBytes 4 v) (List.replicate 4 (e.2.any (·) || k.2.any (·))) z
        | none => z
      else z) y) s

/-! ### Codes -/

/-- See the log. [DEDUCED: log 122] -/
def rtCrc24 (i : Issue) (s : State) : State :=
  let c := i.core.toNat
  callRoutine i 0x20 (fun _ p => callOps 0 1 0 p) (fun p t =>
    writeStatusWord c p (crc24From (p.word.arg 2 % 2 ^ 24) (bytesBits (t.sys.spadRead c p.base1 (p.word.arg 1)))) t) s

/-- The status is the computed CRC-32 XOR the one received: 0 exactly when the check passes. [DEDUCED: log 122] -/
def rtCrc32Check (i : Issue) (s : State) : State :=
  let c := i.core.toNat
  callRoutine i 0x21 (fun _ p => callOps 0 1 0 p && decide (4 ≤ p.word.arg 1)) (fun p t =>
    let bs := t.sys.spadRead c p.base1 (p.word.arg 1)
    let body := bs.take (bs.length - 4)
    writeStatusWord c p (Nat.xor (frameCrc32 (p.word.arg 2 % 2 ^ 20) body) (bytesToNat (bs.drop (bs.length - 4)))) t) s

/-- See the log. [DEDUCED: log 122] -/
def rtHcrc (i : Issue) (s : State) : State :=
  let c := i.core.toNat
  callRoutine i 0x22 (fun _ p => callOps 0 1 0 p) (fun p t =>
    writeStatusWord c p (hcrc (bytesBits (t.sys.spadRead c p.base1 6))) t) s

/-- Bits of scratchpad bytes, most significant first, with the poison of their byte. -/
def spadBits (y : Sys) (c a n : Nat) : List (Bool × Bool) :=
  let b := spadBytes y c a ((n + 7) / 8)
  ((List.range n).map fun i => ((b.1.getD (i / 8) 0).getLsbD (7 - i % 8), b.2.getD (i / 8) false))

/-- See the log. [DESIGN CHOICE: log 257] -/
def writeBits (c a : Nat) (bs : List (Bool × Bool)) (y : Sys) : Sys :=
  let bytes := packBits (bs.map Prod.fst)
  spadMarked c a bytes ((List.range bytes.length).map fun i => ((bs.drop (8 * i)).take 8).any Prod.snd) y

def rtScramble (i : Issue) (s : State) : State :=
  let c := i.core.toNat
  callRoutine i 0x23 (fun _ p => callOps 1 1 0 p) (fun p t =>
    let n := p.word.arg 2
    let ins := spadBits t.sys c p.base1 n
    let sc := (scramblerBits (n + p.word.arg 3) (p.word.arg 1 % 2 ^ 15)).drop (p.word.arg 3)
    t.onSys (writeBits c p.base0 ((ins.zip sc).map fun e => (e.1.1 != e.2, e.1.2)))) s

def rtLdpcEnc (i : Issue) (s : State) : State :=
  let c := i.core.toNat
  callRoutine i 0x24
    (fun _ p => callOps 1 1 0 p && decide (p.word.arg 1 ≤ 2) && decide (p.word.arg 2 ∈ [16, 32, 64, 128])
      && decide (p.word.arg 3 ≤ blockBits (p.word.arg 1) (p.word.arg 2)))
    (fun p t =>
      let rate := p.word.arg 1
      let z := p.word.arg 2
      let k := blockBits rate z
      let ins := spadBits t.sys c p.base1 (k - p.word.arg 3)
      let word := ldpcEncode rate z (ins.map Prod.fst ++ List.replicate (p.word.arg 3) false)
      let poison := ins.any Prod.snd
      t.onSys (writeBits c p.base0 (word.map fun b => (b, poison)))) s

/-- The channel estimate of Op2 in CINT16 units, as fractions: one CINT16 element, or two elements of a real format. [DEDUCED: log 269] -/
def channelEstimate (y : Sys) (c : Nat) (p : PortCmd) : (Int × Nat) × (Int × Nat) × Bool :=
  let f := p.word.opFmt 2
  let e := y.elem c f p.base2 0
  if f = 10 then ((toSigned 16 (e.1 % 65536), 1), (toSigned 16 (e.1 / 65536), 1), e.2)
  else
    let q := y.elem c f p.base2 1
    let r := (readElem f e.1).frac
    let i := (readElem f q.1).frac
    ((r.1 * 32768, r.2), (i.1 * 32768, i.2), e.2 || q.2)

/-- The estimate turned by a phasor, narrowed to CINT16 (R287, R292). [DEDUCED: log 269] -/
def turned (g : (Int × Nat) × (Int × Nat) × Bool) (u : Int × Int) : Nat :=
  let re := fixRound ((g.1.1 * u.1 * g.2.1.2 - g.2.1.1 * u.2 * g.1.2) / (g.1.2 * g.2.1.2 : Nat))
  let im := fixRound ((g.1.1 * u.2 * g.2.1.2 + g.2.1.1 * u.1 * g.1.2) / (g.1.2 * g.2.1.2 : Nat))
  ofSigned 16 (clampInt (intRange 10) re) + ofSigned 16 (clampInt (intRange 10) im) * 65536

/-- The waveform of coded bits from data symbol ARG3 on: ARG2 symbols at two samples each (R84), pilot blocks among them (R50), their
phase by R42 and R43 from 0, times the channel estimate. [DEDUCED: log 269] -/
def rtGfskMod (i : Issue) (s : State) : State :=
  let c := i.core.toNat
  callRoutine i 0x25 (fun _ p => callOps 1 1 1 p && p.word.opFmt 0 == 10 && airClassValid (p.word.arg 1)) (fun p t =>
    let n := p.word.arg 2
    let pr := classProfile (p.word.arg 1)
    let bits := spadBits t.sys c p.base1 (n * (if pr.four then 2 else 1))
    let as := ((dataSymbolValues pr.four (p.word.arg 3) (bits.map Prod.fst)).take n).map fun a => a * symbolUnit
    let g := channelEstimate t.sys c p
    let poison := g.2.2 || bits.any Prod.snd
    t.onSys fun y => y.writeElems c 10 p.base0 ((List.range (2 * n)).map fun j => (turned g (phasor pr as j), poison))) s

/-- Label bits of the payload data symbols ARG3, ARG3 + ARG4, …: coded bits before scrambling, one element of Op0's format
each. [DEDUCED: log 97; DESIGN CHOICE: log 126] -/
def rtLabelBits (i : Issue) (s : State) : State :=
  let c := i.core.toNat
  callRoutine i 0x26 (fun _ p => callOps 1 1 0 p && decide (p.word.arg 1 < 16) && decide (1 ≤ p.word.arg 2 ∧ p.word.arg 2 ≤ 256)
      && decide (1 ≤ p.word.arg 4)) (fun p t =>
    let pr := profileOf (p.word.arg 1)
    let b := spadBytes t.sys c p.base1 (p.word.arg 2 + 3)
    let coded := encodePayload pr.rate pr.z (bytesBits b.1)
    let m := if pr.four then 2 else 1
    let symbols := coded.length / m
    let picked := (List.range symbols).filter fun j => decide (p.word.arg 3 ≤ j) && (j - p.word.arg 3) % p.word.arg 4 == 0
    let bits := picked.flatMap fun j => labelBits coded m j
    let fmt := p.word.opFmt 0
    let poison := b.2.any (·)
    t.onSys fun y => y.writeElems c fmt p.base0 (bits.map fun v => (writeElem fmt t.ieeeOpt (.ofInt v.toNat), poison))) s

/-- Quantised head: INT8 matrix in row order, then one FP32 scale per column (R142, R304). [DEDUCED: log 125; DESIGN CHOICE: log 258] -/
def rtHeadQuant (i : Issue) (s : State) : State :=
  let c := i.core.toNat
  callRoutine i 0x38 (fun _ p => callOps 1 1 0 p && p.word.opFmt 1 == 9 && p.word.opFmt 0 == 1) (fun p t =>
    let rows := p.word.arg 1
    let cols := p.word.arg 2
    let e (r k : Nat) : Nat × Bool := t.sys.elem c 9 p.base1 (r * cols + k)
    let scales := (List.range cols).map fun k => (groupScale 1 ((List.range rows).map fun r => ofFp32 (e r k).1)).1
    let poison := (List.range cols).map fun k => (List.range rows).any fun r => (e r k).2
    let q (r k : Nat) : Nat :=
      let x := ofFp32 (e r k).1
      let sc := scales.getD k fone
      match x with
      | .fin neg _ _ => writeElem 1 0 (.ofInt (let v := roundMagInt (x.mag.1 * sc.mag.2) (x.mag.2 * sc.mag.1); if neg then -(v : Int) else v))
      | _ => writeElem 1 0 x
    let codes := (List.range rows).flatMap fun r => (List.range cols).map fun k => (q r k, poison.getD k false)
    t.onSys fun y => (y.writeElems c 1 p.base0 codes).writeElems c 9 (p.base0 + rows * cols)
      ((List.range cols).map fun k => (toFp32 (scales.getD k fone), poison.getD k false))) s

/-! ### Service routines -/

/-- A MOV.PUT (`put`) or MOV.GET of `count` bursts between scratchpad address `a` and global address `g`, in mover queue 3. [DEDUCED: log 124] -/
def movWord (put : Bool) (tag g a burst count : Nat) : Cmd :=
  let o := 20 + 20 * put.toNat
  let f (byte v : Nat) : Nat := v * 2 ^ (8 * byte)
  BitVec.ofNat 1024 (f 0 (if put then 0x61 else 0x60) + f 2 tag + f 4 (1 * 2 ^ 12) + f 8 count + f o (2 ^ 31 + 2 * 2 ^ 19 + a)
    + f (o + 4) 4096 + f 80 g + f 88 4096 + f 112 burst + f 114 3)

/-- The commands that move the first `n` bytes of the scratchpad to or from a global address (Table 06-8). [DEDUCED: log 124] -/
def ckptMoves (put : Bool) (tag g n : Nat) : List Cmd :=
  (if 4096 ≤ n then [movWord put tag g 0 4096 (n / 4096)] else [])
    ++ (if n % 4096 = 0 then [] else [movWord put tag (g + n / 4096 * 4096) (n / 4096 * 4096) (n % 4096) 1])

/-- A routine gives mover queue 3 its commands and returns when the last write has landed (R214). [DESIGN CHOICE: log 265] -/
def callMoves (c : Nat) (ms : List Cmd) (w : Cmd) (s : State) : State :=
  if ms.isEmpty then s.onCore c fun k => k.complete w
  else (ms.foldl (fun t m => enqueueMove c { word := m, base0 := m.opAddr 0, base1 := m.opAddr 1 } t) s).onCore c fun k =>
    { k with call := some w }

/-- A call whose routine moves through mover queue 3, which it finds empty. [DEDUCED: log 223] -/
def callMoving (i : Issue) (r : Nat) (moves : PortCmd → List Cmd) (s : State) : State :=
  let c := i.core.toNat
  match s.current i with
  | none => s
  | some w =>
    if w.opcode != 0x03 || w.param 0 0 8 != r || s.patched r then s
    else if (s.core c).inJob && serviceRoutine r && !i.ecc then s.cmdFault Cls.MODE UnitCode.sequencer c w.tag r
    else
      s.issueCmd i 0x03 UnitCode.sequencer (fun w => commonOk w true 2 2 2) (fun k _ => k.callReady && (moverQueue k 3).isEmpty) fun p t =>
        if callOps 0 0 0 p then callMoves c (moves p) p.word t
        else s.cmdFault Cls.ILLEGAL_CMD UnitCode.sequencer c w.tag r

/-- RT_CKPT_SAVE: the first ARG2 bytes of the scratchpad to global address ARG1. [DEDUCED: log 124] -/
def rtCkptSave (i : Issue) (s : State) : State :=
  callMoving i 0x40 (fun p => ckptMoves true p.word.tag (p.word.arg 1) (min 524288 (p.word.arg 2))) s

/-- RT_CKPT_RESTORE: the first ARG2 bytes of the scratchpad from global address ARG1. [DEDUCED: log 124] -/
def rtCkptRestore (i : Issue) (s : State) : State :=
  callMoving i 0x41 (fun p => ckptMoves false p.word.tag (p.word.arg 1) (min 524288 (p.word.arg 2))) s

/-- Accumulators and row sums with free values, both latches EMPTY: the array after a routine that used it. [DESIGN CHOICE: log 123] -/
def freeArray (c : Nat) (t : State) : State :=
  let seed := t.sys.seed
  { t with sys := { t.sys with seed := seed + 512 * 33 } }.onCore c fun k =>
    let a := (List.range 512).foldl (fun (b : MatrixArray) r =>
      let b1 := b.setRow r ((List.range 32).map fun n => ((Config.freeBits 80 (seed + 33 * r + n)).toNat, false))
      { b1 with rowSum := mapSet sumDefault r ((Config.freeBits 32 (seed + 33 * r + 32)).toNat, false) b1.rowSum }) k.array
    { k with array := { a with active := {}, shadow := {}, token := false } }

/-- A command that a patch routine may give mover queue 3: a legal MOV.GET or MOV.PUT of that queue. [DEDUCED: log 119] -/
def patchMove (w : Cmd) : Bool :=
  w.queue == 3 && !w.signalDone && w.opMode 0 == 0 && w.opMode 1 == 0 &&
    ((w.opcode == 0x60 && movLegal 1 0 w) || (w.opcode == 0x61 && movLegal 0 1 w))

/-- SEQ.CALL of an entry served from patch RAM; of an entry that holds no routine, ROUTINE_ABSENT (R213). What the routine does is the
firmware's and comes with the command. [DEDUCED: log 119] -/
def callPatch (i : Issue) (run : PatchRun) (s : State) : State :=
  let c := i.core.toNat
  match s.current i with
  | none => s
  | some w =>
    let r := w.param 0 0 8
    if w.opcode != 0x03 then s
    else if !s.patched r then
      (if romRoutines.contains r || i.ecc then s else s.cmdFault Cls.ROUTINE_ABSENT UnitCode.sequencer c w.tag r)
    else
      let moves := (run.moves.filter patchMove).take 16
      s.issueCmd i 0x03 UnitCode.sequencer (fun w => commonOk w true 2 2 2)
        (fun k _ => k.callReady && (moves.isEmpty || (moverQueue k 3).isEmpty)) fun p t =>
        let t1 := t.onSys fun y => run.spad.foldl (fun z e => z.spadWrite c e.1.toNat e.2 false) y
        let t2 := if run.array then freeArray c t1 else t1
        let t3 := t2.onSu c fun u =>
          { u with x := run.x.foldl (fun m e => writeBytes m 65536 e.1.toNat e.2) u.x,
                   y := run.y.foldl (fun m e => writeBytes m 65536 e.1.toNat e.2) u.y }
        callMoves c moves p.word t3

/-- The tested banks hold free values afterwards. [DESIGN CHOICE: log 123] -/
def rtBistSpad (i : Issue) (s : State) : State :=
  let c := i.core.toNat
  callRoutine i 0x48 (fun _ p => callOps 0 0 0 p) (fun p t =>
    let addrs := (List.range 524288).filter fun a => (p.word.arg 1).testBit (bitsOf a 6 3)
    let t1 := t.onSys fun y =>
      let z := addrs.foldl (fun z a => z.spadWrite c a [Config.freeBits 8 (y.seed + a)] false) y
      { z with seed := y.seed + 524288 }
    freeStatus c p t1) s

/-- The array's self-test leaves it as no routine's caller may rely on. [DESIGN CHOICE: log 123] -/
def rtBistArray (i : Issue) (s : State) : State :=
  let c := i.core.toNat
  callRoutine i 0x49 (fun _ p => callOps 0 0 0 p) (fun p t => freeStatus c p (freeArray c t)) s

/-- The patterns of Table 17-5 on one checker of the core's memories; a checker that gives any other outcome (`fails`)
fences the core (R503, R504). [DESIGN CHOICE: log 123] -/
def rtCheckerTest (i : Issue) (fails : Bool) (s : State) : State :=
  let c := i.core.toNat
  callRoutine i 0x4A (fun _ p => callOps 0 0 0 p) (fun p t =>
    if fails then
      (t.fenceCoreNow c).onSys fun y => y.event Cls.CHECKER_FAIL [(2, 2, p.word.arg 1), (4, 1, UnitCode.sequencer)]
    else freeStatus c p t) s

end Sys2Proof.Machine
end

