-- ==== Sys2Proof/Machine/Phases.lean ====
section
/-! DEFINITION. Phase starts and their barrier, dealt counts and rings, the combination of quantisation statistics, and the
stall detector (R187, R194, R308 to R310, R352, R356, R364 to R367). -/

namespace Sys2Proof.Machine

/-! ### Dealt counts (Table 04-16, DEAL) -/

/-- Logical core of a working core (R130). -/
def Sys.logicalOf (y : Sys) (c : Nat) : Nat := ((y.workingCores (c / 16)).findIdx? fun d => d == c).getD 0

/-- The count of a kind in the work dealt to one core: channels in turn, bursts as dealt for RECV. For the other kinds the
manual does not say how a cluster's work falls to its cores: a free value within the cluster's count. -/
def State.coreCount (s : State) (c kind : Nat) : Nat × State :=
  let g := c / 16
  let mine := s.rx.bursts.filter fun b => b.recvCore == some c
  let streams (b : Burst) : Nat := match s.channelCfg b.channel with
    | some x => popcount32 x.streams
    | none => 0
  match kind with
  | 2 =>
    let chans := s.job.channels.filter fun x => s.homeCluster x.id == g
    let n := max 1 (s.sys.workingCores g).length
    let own := (List.range chans.length).filter fun i => i % n == s.sys.logicalOf c
    ((own.map fun i => match chans[i]? with | some x => popcount32 x.streams | none => 0).foldl (· + ·) 0, s)
  | 3 => ((mine.map fun b => s.symbolsDue b * streams b).foldl (· + ·) 0, s)
  | 4 => ((mine.map s.symbolsDue).foldl (· + ·) 0, s)
  | 5 => ((mine.map fun b => if s.inCollision b then s.collidedDue b * streams b else 0).foldl (· + ·) 0, s)
  | _ => (Config.freeNat s.sys.seed % (s.countOf g kind + 1), s.onSys fun y => { y with seed := y.seed + 1 })

/-- The dealt count of position `k` of an instance on a core: its DEAL entry's formula, or 0 without an entry. [DEDUCED: log 69] -/
def State.dealtCount (s : State) (c inst k : Nat) : Nat × State :=
  match s.mapTable s.job.qset 5 with
  | none => (0, s)
  | some (o, n) =>
    match (List.range n).find? fun i =>
        s.imgNat (o + 16 * i) 2 == inst && s.imgNat (o + 16 * i + 2) 1 == s.sys.logicalOf c && s.imgNat (o + 16 * i + 3) 1 == k with
    | none => (0, s)
    | some i =>
      let e := o + 16 * i
      let cnt := s.coreCount c (s.imgNat (e + 4) 1)
      let d := max 1 (s.imgNat (e + 6) 2)
      let v : Int := ((cnt.1 + d - 1) / d : Nat) + toSigned 32 (s.imgNat (e + 8) 4)
      (min (s.imgNat (e + 12) 2) v.toNat, cnt.2)

/-- Write the dealt field of a command: COUNT of a REPEAT, else COUNT[LEVELS − 1] (R194). -/
def setDealt (w : Cmd) (v : Nat) : Cmd :=
  if w.opcode = 2 then BitVec.ofNat 1024 (putBits w.toNat (8 * 82) 16 v)
  else if w.levels = 0 then w
  else BitVec.ofNat 1024 (putBits w.toNat (8 * (8 + 2 * (w.levels - 1))) 16 v)

/-! ### Starting a stream (R187, R352, R356) -/

/-- Ring `r` of a stream as its RING entry configures it; disabled without an entry. -/
def State.ringOf (s : State) (c inst r : Nat) : StreamRing :=
  match s.mapTable s.job.qset 8 with
  | none => {}
  | some (o, n) =>
    match (List.range n).find? fun i =>
        s.imgNat (o + 16 * i) 2 == inst && s.imgNat (o + 16 * i + 2) 1 == s.sys.logicalOf c && s.imgNat (o + 16 * i + 3) 1 % 8 == r with
    | none => {}
    | some i =>
      let e := o + 16 * i
      { enabled := true, base := s.imgNat (e + 4) 4 % 524288, slots := s.imgNat (e + 8) 1, slotKib := s.imgNat (e + 9) 1,
        lead := s.imgNat (e + 10) 1, mcast := (s.imgNat (e + 3) 1).testBit 3 }

/-- Write an instance's dealt counts into a core's command memory. -/
def dealStream (c inst : Nat) (s : State) : State :=
  match s.section' 9 inst with
  | none => s
  | some (o, _) =>
    let e := o + 8 + 24 * s.sys.logicalOf c
    (List.range (s.imgNat (e + 4) 1)).foldl (fun a k =>
      let idx := s.imgNat (e + 8 + 2 * k) 2
      let v := a.dealtCount c inst k
      v.2.onCore c fun x =>
        { x with cm := mapSet (fun _ => (0 : BitVec 1024)) idx (setDealt (mapGet (fun _ => (0 : BitVec 1024)) idx x.cm) v.1) x.cm }) s

/-- Start a stream on a core that runs none: dealt counts, rings with their counters at 0, then CM_BASE. [DEDUCED: log 74] -/
def startStream (c inst : Nat) (adapt : Bool) (s : State) : State :=
  let prog := mapGet (fun _ => (0, 0)) inst (s.core c).programs
  if prog.2 = 0 || (s.core c).stream.isSome || s.sys.coreFenced c then s
  else
    let s1 := dealStream c inst s
    s1.onCore c fun k =>
      { k with
        rings := (List.range 8).foldl (fun m r => mapSet streamRingDefault r (s1.ringOf c inst r) m) [],
        inJob := true,
        stream := some { inst := inst, first := prog.1, len := prog.2, pc := prog.1, adapt := adapt } }

/-- Every working core of the job. -/
def State.jobCores (s : State) : List Nat := s.jobClusters.flatMap fun g => s.sys.workingCores g

/-- Index of a phase whose streams run; `none` for ingest and the combining pass. -/
def Phase.streamIndex : Phase → Option Nat
  | .chan => some 0
  | .detect => some 1
  | .recv => some 2
  | .decode => some 3
  | .deliver => some 4
  | _ => none

/-- Start the streams of the phase and the grade in force, with fresh multicast groups (R76, R187, R360). -/
def startStreams (s : State) : State :=
  match s.job.phase.streamIndex with
  | none => s
  | some p =>
    let s1 := { s with comp := { s.comp with groups := [] } }
    s1.jobCores.foldl (fun a c => startStream c (a.instanceFor (c / 16) p a.grade) false a) s1

/-- Under replay the entry of the slot fixes the grade of each phase (R573). -/
def pinGrade (s : State) : State :=
  if s.job.replayActive && decide (s.job.pinnedAt ≤ s.job.phase.index) && s.job.phase != .ingest && s.job.pinnedAt != 7 then
    { s with job := { s.job with fallback := true, fallbackAt := s.job.pinnedAt } }
  else s

/-- CHAN of a slot whose ingest has closed starts: counts, checkpoint, streams (R76, R378). -/
def startChan (s : State) : State :=
  let s1 := countsAtStart { s with job := { s.job with phase := .chan, phaseFrom := s.sys.monitorNow, worked := false } }
  startStreams (pinGrade s1.checkpoint)

/-! ### The phase barrier (R364, R565) -/

/-- Every working core has completed its stream. -/
def State.streamsDone (s : State) : Bool := s.jobCores.all fun c => (s.core c).stream.isNone

/-- With DETERMINISTIC, RECV waits for the swap-ins requested before the barrier of DETECT (R565). -/
def State.swapInsHold (s : State) : Bool :=
  s.deterministic && s.job.phase == .detect && !s.sessions.requests.isEmpty

/-- The phase barrier releases: the phase ends, its checkpoint is taken, the next phase's streams start. -/
def phaseBarrier (s : State) : State :=
  if s.job.active && s.job.worked && s.job.phase.streamIndex.isSome && s.streamsDone && !s.swapInsHold then
    startStreams (pinGrade (endPhase s))
  else s

/-- A completed ADAPT stream frees its core for the stream of the phase in progress (R187). -/
def streamCompleted (c : Nat) (s : State) : State :=
  let adapt := match (s.core c).stream with | some r => r.adapt | none => false
  let s1 := streamComplete c s
  if adapt && (s1.core c).stream.isNone && s1.job.active then
    match s1.job.phase.streamIndex with
    | some p => startStream c (s1.instanceFor (c / 16) p s1.grade) false s1
    | none => s1
  else s1

/-- Cluster that runs a head group's ADAPT work (Table 04-16, ADAPT_ASSIGN). [DEDUCED: log 73] -/
def State.adaptCluster (s : State) (airClass group : Nat) : Option Nat :=
  match s.mapTable s.job.qset 4 with
  | none => none
  | some (o, n) =>
    ((List.range n).find? fun i => s.imgNat (o + 4 * i) 1 == airClass && s.imgNat (o + 4 * i + 1) 1 == group).map fun i =>
      s.clusterOf s.job.qset (s.imgNat (o + 4 * i + 2) 1)

/-- An ADAPT block (R79): its cluster's cores run the ADAPT stream, and the group's adaptation moves on. [DEDUCED: log 73] -/
def adaptBlockStep (a : AdaptBlock) (s : State) : State :=
  if s.slackFor a.refNs && s.adapting (adaptKey a.airClass.toNat a.group.toNat) then
    let s1 := match s.adaptCluster a.airClass.toNat a.group.toNat with
      | some g => (s.sys.workingCores g).foldl (fun t c => startStream c (t.instanceFor g 5 0) true t) s
      | none => s
    adaptBlock a s1
  else s

/-! ### Quantisation statistics (R308 to R310) -/

/-- Entry `t` of the QUANT section: its offset in the image. -/
def State.quantEntry (s : State) (t : Nat) : Option Nat := (s.section' 7 0).map fun e => e.1 + 16 + 32 * t

def State.quantCount (s : State) : Nat := match s.section' 7 0 with | some e => s.imgNat e.1 2 | none => 0

/-- A tensor's statistics over all cores: sums and the largest MAX. -/
def State.combined (s : State) (t : Nat) : Stat :=
  (s.cores.map fun e => mapGet statDefault t e.2.stats).foldl (fun a b =>
    { sat := a.sat + b.sat, unf := a.unf + b.unf, count := a.count + b.count, max := maxBits a.max b.max }) {}

/-- MULT × s′ or MULT / s′ rounded once, an overflow by IEEE_OVF (R294). -/
def placeValue (ieee : Bool) (mult scale : Nat) (exp : Int) : Nat :=
  toFp32 (if 0 < exp then fmul ieee (ofFp32 mult) (ofFp32 scale) else fdiv ieee (ofFp32 mult) (ofFp32 scale))

/-- Write a tensor's places in the scratchpads of the logical cores (R310). -/
def writePlaces (e scale : Nat) (s : State) : State :=
  match s.section' 7 0 with
  | none => s
  | some (o, _) =>
    let base := o + s.imgNat (e + 0x10) 4
    (List.range (s.imgNat (e + 0x14) 2)).foldl (fun a i =>
      let p := base + 16 * i
      let v := placeValue s.ieee32 (s.imgNat (p + 8) 4) scale (toSigned 8 (s.imgNat (p + 2) 1))
      let logical := s.imgNat p 2
      (a.jobCores.filter fun c => logical == 0xFFFF || a.sys.logicalOf c == logical).foldl (fun b c =>
        b.onSys fun y => y.spadWrite c (s.imgNat (p + 4) 4) (natToBytes 4 v) false) a) s

def State.scale (s : State) (t : Nat) : BitVec 32 := mapGet (fun _ => (0 : BitVec 32)) t s.comp.scales
def State.setScale (s : State) (t : Nat) (v : BitVec 32) : State :=
  { s with comp := { s.comp with scales := mapSet (fun _ => (0 : BitVec 32)) t v s.comp.scales } }

/-- One tensor of the combination: alarm, event, and with AUTO_RESCALE the new scale in its places, except in the last
slot before a job stop (R309, R310, R312). -/
def tensorAlarm (t : Nat) (s : State) : State :=
  match s.quantEntry t with
  | none => s
  | some e =>
    let x := s.combined t
    if scaleAlarm x.sat x.unf x.count (s.imgNat (e + 0x0A) 2) then
      let auto := (s.imgNat (e + 3) 1).testBit 0 && s.job.state != .stopping
      let new := if auto then newScale (s.imgNat (e + 2) 1) (s.scale t).toNat x.max.toNat else none
      let s1 := s.onSys fun y => y.event Cls.SCALE_ALARM [(2, 2, t), (4, 4, min (2 ^ 32 - 1) x.sat), (8, 4, min (2 ^ 32 - 1) x.unf),
        (12, 4, min (2 ^ 32 - 1) x.count), (16, 4, x.max.toNat), (20, 4, new.getD 0), (24, 6, s.job.slot % 2 ^ 48)]
      match new with
      | some v => (writePlaces e v s1).setScale t (BitVec.ofNat 32 v)
      | none => s1
    else s

/-- Has every stream but those of ADAPT completed? -/
def State.slotStreamsDone (s : State) : Bool :=
  s.jobCores.all fun c => match (s.core c).stream with | some r => r.adapt | none => true

/-- The statistics combine when the DELIVER stream has completed on every core (R308), and the cores' entries return to zero. -/
def statsCombine (s : State) : State :=
  if s.job.active && s.slotStreamsDone && (s.job.phase == .combine || (s.job.phase == .deliver && s.job.worked)) then
    let s1 := (List.range s.quantCount).foldl (fun a t => tensorAlarm t a) s
    { s1 with cores := s1.cores.map fun e => (e.1, { e.2 with stats := [] }) }
  else s

/-! ### Stall detection (R365 to R367) -/

/-- The ring on which a multicast step of a core waits: its number and the first live member whose ring has no free slot (R359). -/
def State.mcastWaits (s : State) (c : Nat) (w : Cmd) : Option (Nat × Nat) :=
  match s.groupEntry w.group with
  | none => none
  | some e =>
    let ring := s.imgNat (e + 2) 1 % 8
    if s.imgNat (e + 1) 1 = 0 then none
    else ((s.liveMembers (s.groupMembers e c) (groupKey w.group c)).find? fun d => ((s.core d).ring ring).space == 0).map fun d => (ring, d)

/-- The ring and the core whose counters hold the head command of a mover queue: a RING_FEED waits for its own ring to fall below
LEAD (R355), a MOV.MCAST for space at a member (R359). -/
def State.waitingMove (s : State) (c q : Nat) : Option (Nat × Nat) :=
  let k := s.core c
  match moverQueue k q with
  | [] => none
  | m :: _ =>
    let r := k.ring m.cmd.word.feedRing
    if m.filling || decide (m.cmd.word.steps ≤ m.step) then none
    else match m.cmd.word.opcode with
      | 0x63 => if r.lead ≤ (r.fillCount - r.head).toNat then some (m.cmd.word.feedRing, c) else none
      | 0x62 => s.mcastWaits c m.cmd.word
      | _ => none

/-- No port has an executing command other than a waiting feed or multicast, and no packet is in flight. -/
def State.portsWait (s : State) (c : Nat) : Bool :=
  let k := s.core c
  k.packets.isEmpty && (List.range 4).all k.portIdle && (List.range 4).all fun q => (moverQueue k q).isEmpty || (s.waitingMove c q).isSome

/-- Does the sequencer hold on a SEQ.WAIT or a SEQ.BARRIER? -/
def Core.holds (k : Core) : Bool :=
  match k.stream with
  | some r => !r.stopped && (r.barrier.isSome || (r.waiting && !k.waitHolds (mapGet (fun _ => (0 : BitVec 1024)) r.pc k.cm)))
  | none => false

/-- Is a core waiting: its sequencer holds, or its ports hold waiting feeds and multicasts, and nothing else executes (R365)? -/
def State.isWaiting (s : State) (c : Nat) : Bool :=
  (s.core c).stream.isSome && s.portsWait c && ((s.core c).holds || (List.range 4).any fun q => (s.waitingMove c q).isSome)

/-- Is a core active: neither idle nor waiting? -/
def State.isActive (s : State) (c : Nat) : Bool := (s.core c).stream.isSome && !s.isWaiting c

/-- Detail of a stall record: object or ring, value or counters, THRESH. -/
def waitDetail (k : Core) (w : Cmd) : Nat :=
  let x := w.param 1 0 8
  let th := w.param 4 0 32
  match w.param 0 0 8 with
  | 0 => x + (k.obj x).toNat * 2 ^ 32 + th * 2 ^ 64
  | 3 => th * 2 ^ 64
  | _ => x + (k.ring x).head.toNat % 2 ^ 16 * 2 ^ 16 + (k.ring x).tail.toNat * 2 ^ 32 + th * 2 ^ 64 + (k.ring x).fillCount.toNat * 2 ^ 96

/-- Stall records of one core: its waiting sequencer command and its waiting feeds and multicasts. -/
def stallRecords (c : Nat) (s : State) : State :=
  let k := s.core c
  let seq := match k.stream with
    | none => s
    | some r =>
      if k.holds then
        if r.barrier.isSome then
          s.onSys fun y => y.fault Cls.SYNC_STALL UnitCode.sequencer c r.barrierTag (r.barrier.getD 0)
        else
          let w : Cmd := mapGet (fun _ => (0 : BitVec 1024)) r.pc k.cm
          let cls := if w.param 0 0 8 = 1 ∨ w.param 0 0 8 = 2 then Cls.RING_STALL else Cls.SYNC_STALL
          s.onSys fun y => y.fault cls UnitCode.sequencer c w.tag (waitDetail k w)
      else s
  (List.range 4).foldl (fun a q =>
    match moverQueue k q, s.waitingMove c q with
    | m :: _, some (ring, d) =>
      let r := (s.core d).ring ring
      a.onSys fun y => y.fault Cls.RING_STALL UnitCode.mover c m.cmd.word.tag (ring + r.head.toNat * 2 ^ 32 + r.tail.toNat * 2 ^ 64)
    | _, _ => a) seq

/-- Heron's test (R366): quiet since 10 µs with a core waiting writes one record for every waiting command. -/
def stallCheck (s : State) : State :=
  let cores := s.jobCores
  if !s.job.active || s.sys.jobFault.isSome then s
  else if cores.any s.isActive then { s with comp := { s.comp with quietSince := none } }
  else
    match s.comp.quietSince with
    | none => { s with comp := { s.comp with quietSince := some s.sys.now } }
    | some t =>
      let waiting := cores.filter s.isWaiting
      if t + 10000 ≤ s.sys.now && s.comp.lastEvent + 10000 ≤ s.sys.now && !waiting.isEmpty then
        waiting.foldl (fun a c => stallRecords c a) { s with comp := { s.comp with quietSince := none } }
      else s

end Sys2Proof.Machine
end

