-- ==== Sys2Proof/Machine/ImageCheck.lean ====
section
/-! DEFINITION. The checks of a model image (Table 04-4) in their order, over an image as it lies in a staging half (R114 to
R119, R128, R154, R158, R186, R299, R307, R311, R351, R352, R357). -/

namespace Sys2Proof.Machine

/-- Are `n` bytes from an image offset zero? -/
def State.imgZero (s : State) (o n : Nat) : Bool := (List.range n).all fun i => s.imgNat (o + i) 1 == 0

/-- Do two spans share a byte? -/
def overlap (a b : Nat × Nat) : Bool := decide (a.1 < b.1 + b.2 ∧ b.1 < a.1 + a.2 ∧ 0 < a.2 ∧ 0 < b.2)

def disjointSpans : List (Nat × Nat) → Bool
  | [] => true
  | a :: rest => (rest.all fun b => !overlap a b) && disjointSpans rest

def distinct {α : Type} [BEq α] : List α → Bool
  | [] => true
  | a :: rest => !rest.contains a && distinct rest

/-- A positive, finite, normal FP32 pattern. -/
def normalScale (v : Nat) : Bool := decide (v < 2 ^ 31) && decide (1 ≤ bitsOf v 23 8) && decide (bitsOf v 23 8 ≤ 254)

/-! ### Checks 1 to 6 -/

/-- FORMAT (Table 04-1). `len` is the length the descriptor gives. [DEDUCED: log 38] -/
def formatOk (s : State) (len : Nat) : Bool :=
  s.imgNat 0 4 == 0x4E424D49 && s.imgNat 4 2 == 1 && s.imgNat 6 2 == 256
    && decide (s.imgNat 8 8 ≤ 2 ^ 28) && s.imgNat 8 8 % 4096 == 0 && decide (s.imgNat 8 8 ≤ len) && decide (8192 ≤ s.imgNat 8 8)
    && decide (s.imgNat 0x20 2 < 4096) && decide (s.imgNat 0x22 1 ≤ 1) && decide (s.imgNat 0x23 1 < 8)
    && decide (1 ≤ s.imgNat 0x24 1 ∧ s.imgNat 0x24 1 ≤ 16) && decide (s.imgNat 0x25 1 ≤ 48) && s.imgZero 0x38 200

/-- Low 64 bits of the SHAKE256 of a key: its first 8 bytes (Table 04-1). [DEDUCED: log 45] -/
def keyId (key : List Byte) : Nat := (Config.shake256 key).toNat % 2 ^ 64

/-- The operator key that KEY_ID names. -/
def imageKey (s : State) : Option (List Byte) := (s.heron.keys.find? fun e => keyId e.2 == s.imgNat 0x30 8).map Prod.snd

def imageBytes (s : State) : Nat → Nat → List Byte := fun o n => s.sys.peekN (stagingBase s.image.half + o) n

/-- The image digest (R117). -/
def imageDigest (s : State) : BitVec 512 := Config.shake256 (imageBytes s 0 (s.imgNat 8 8 - 4096))

def signatureOk (s : State) (key : List Byte) : Bool :=
  let b := s.imgNat 8 8 - 4096
  s.imgNat b 2 == 1 && s.imgNat (b + 2) 2 == 3309
    && Config.mlDsaVerify key (natToBytes 64 (imageDigest s).toNat) (imageBytes s (b + 16) 3309)

/-- Directory entries: (type, instance, offset, length). -/
def directory (s : State) : List (Nat × Nat × Nat × Nat) :=
  (List.range (s.imgNat 0x26 2)).map fun i =>
    let d := s.imgNat 0x28 8 + 32 * i
    (s.imgNat d 2, s.imgNat (d + 2) 2, s.imgNat (d + 8) 8, s.imgNat (d + 16) 8)

def State.imageClasses (s : State) : List Nat := (List.range 12).filter fun a => (s.imgNat 0x20 2).testBit a

/-- Sections of Table 04-3 other than CMD, which check 8 counts. [DEDUCED: log 51] -/
def requiredSections (s : State) : List (Nat × Nat) :=
  [(1, 0), (7, 0), (10, 0), (11, 0)] ++ ([2, 3, 4, 5].flatMap fun t => s.imageClasses.map fun a => (t, a))
    ++ ((List.range 13).map fun i => (6, i)) ++ (List.range 4).map fun i => (8, i)

/-- LAYOUT. [DEDUCED: log 38, 51] -/
def layoutOk (s : State) : Bool :=
  let es := directory s
  let end_ := s.imgNat 8 8 - 4096
  let dir := (s.imgNat 0x28 8, 32 * s.imgNat 0x26 2)
  let spans := (0, 256) :: dir :: es.map fun e => (e.2.2.1, e.2.2.2)
  decide (dir.1 + dir.2 ≤ end_)
    && (es.all fun e => e.2.2.1 % 4096 == 0 && decide (e.2.2.1 + e.2.2.2 ≤ end_))
    && disjointSpans spans && distinct (es.map fun e => (e.1, e.2.1))
    && (requiredSections s).all fun r => es.any fun e => (e.1, e.2.1) == r

def firmwareOk (s : State) : Bool := decide (s.imgNat 0x18 4 ≤ s.heron.fwVersion.toNat)

/-! ### Check 7, SHAPE -/

/-- Element code of a tensor whose codes start at `o`. -/
def tensorCode (s : State) (int4 : Bool) (o i : Nat) : Nat :=
  if int4 then bitsOf (s.imgNat (o + i / 2) 1) (4 * (i % 2)) 4 else s.imgNat (o + i) 1

/-- Side list: indices strictly ascending, each at an escape code, as many as escapes, values finite. -/
def sideListOk (s : State) (int4 : Bool) (codes side n total : Nat) : Bool :=
  let esc := if int4 then 8 else 128
  ((List.range n).all fun i =>
    let x := s.imgNat (side + 8 * i) 4
    decide (x < total) && tensorCode s int4 codes x == esc && bitsOf (s.imgNat (side + 8 * i + 4) 2) 10 5 != 31
      && (i == 0 || decide (s.imgNat (side + 8 * (i - 1)) 4 < x)))
    && ((List.range total).filter fun i => tensorCode s int4 codes i == esc).length == n

/-- One weight tensor of a given shape at an offset (R298, R299): the offset behind it, if it is sound. -/
def tensorOk (s : State) (rows cols o : Nat) : Option Nat :=
  let fmt := s.imgNat (o + 4) 1
  let gran := s.imgNat (o + 5) 1
  let scales := s.imgNat (o + 8) 4
  let side := s.imgNat (o + 0x0C) 4
  let codes := s.imgNat (o + 0x10) 4
  let codeAt := o + 32 + pad32 (4 * scales)
  let sideAt := codeAt + pad32 codes
  let want := if gran = 0 then 1 else if gran = 1 then cols else cols * ((rows + 31) / 32)
  if s.imgNat o 2 == rows && s.imgNat (o + 2) 2 == cols && decide (fmt ≤ 1) && decide (gran ≤ 2) && s.imgZero (o + 6) 2 && s.imgZero (o + 0x14) 12
      && scales == want && decide (side ≤ rows * cols / 64) && codes == (if fmt = 1 then rows * cols else (rows * cols + 1) / 2)
      && ((List.range scales).all fun i => normalScale (s.imgNat (o + 32 + 4 * i) 4))
      && sideListOk s (fmt == 0) codeAt sideAt side (rows * cols) then
    some (sideAt + pad32 (8 * side))
  else none

/-- Tensors one after another from an offset, all inside the section. -/
def tensorsOk (s : State) (stop : Nat) : List (Nat × Nat) → Nat → Bool
  | [], o => decide (o ≤ stop)
  | (r, c) :: rest, o =>
    match tensorOk s r c o with
    | some o' => tensorsOk s stop rest o'
    | none => false

def sectionTensors (s : State) (type inst : Nat) (shapes : List (Nat × Nat)) : Bool :=
  match s.section' type inst with
  | none => false
  | some (o, len) => tensorsOk s (o + len) shapes o

/-- Shapes of Table 04-6 for an air class: inputs are rows, outputs columns. -/
def netShapes (s : State) (a : Nat) : List (Nat × List (Nat × Nat)) :=
  let m := if (classProfile a).four then 2 else 1
  [(2, [(96, 128), (128, 128), (128, 32)]), (3, [(64, 256), (288, 128), (128, 384), (384, 384), (384, 256)]),
   (4, (List.range (s.imgNat 0x24 1)).flatMap fun _ => [(256, 64), (64, m)]), (5, [(160, 512), (512, 512), (512, 192)])]

/-- Decoder weight sets (R158). -/
def decWeightsOk (s : State) : Bool :=
  (List.range 13).all fun inst =>
    match s.section' 6 inst with
    | none => false
    | some (o, _) =>
      let rz := instanceRateZ inst
      let present := ((List.range 8).map fun i => (baseRow rz.1 rz.2 i).length).foldl (· + ·) 0
      let e := s.imgNat (o + 1) 1
      decide (1 ≤ s.imgNat o 1 ∧ s.imgNat o 1 ≤ 32) && decide (1 ≤ s.imgNat (o + 2) 1 ∧ s.imgNat (o + 2) 1 ≤ 32) && decide (1 ≤ e ∧ e ≤ 16)
        && (List.range present).all fun k => decide (s.imgNat (o + 0x40 + k) 1 < e)

def placeOk (s : State) (p : Nat) : Bool :=
  (decide (s.imgNat p 2 ≤ 15) || s.imgNat p 2 == 0xFFFF) && (s.imgNat (p + 2) 1 == 1 || s.imgNat (p + 2) 1 == 255) && s.imgZero (p + 3) 1
    && decide (s.imgNat (p + 4) 4 < 2 ^ 19) && s.imgNat (p + 4) 4 % 4 == 0 && s.imgZero (p + 12) 4

/-- One QUANT entry (Table 09-8) of a section of `len` bytes; its place list lies behind the entries. [DEDUCED: log 50] -/
def quantEntryOk (s : State) (o len t : Nat) : Bool :=
  let e := o + 16 + 32 * t
  let fmt := s.imgNat (e + 2) 1
  s.imgNat e 2 == t && (fmt == 0 || fmt == 1 || fmt == 2 || fmt == 5 || fmt == 6) && decide (s.imgNat (e + 3) 1 ≤ 1)
    && !((s.imgNat (e + 3) 1).testBit 0 && decide (2 ≤ fmt))
    && (if fmt = 2 then decide (s.imgNat (e + 8) 2 ≤ 255) else s.imgNat (e + 8) 2 == 0)
    && decide (1 ≤ s.imgNat (e + 0x0A) 2) && decide (s.imgNat (e + 0x0C) 2 ≤ s.imgNat (e + 0x0E) 2) && decide (s.imgNat (e + 0x0E) 2 ≤ 0xFEFF)
    && decide (s.imgNat (e + 0x14) 2 ≤ 256) && s.imgZero (e + 0x16) 10
    && (s.imgNat (e + 0x14) 2 == 0 || decide (16 + 32 * s.imgNat o 2 ≤ s.imgNat (e + 0x10) 4))
    && decide (s.imgNat (e + 0x14) 2 = 0 ∨ s.imgNat (e + 0x10) 4 + 16 * s.imgNat (e + 0x14) 2 ≤ len)
    && (List.range (s.imgNat (e + 0x14) 2)).all fun i => placeOk s (o + s.imgNat (e + 0x10) 4 + 16 * i)

/-- The QUANT section (R311). -/
def quantOk (s : State) : Bool :=
  match s.section' 7 0 with
  | none => false
  | some (o, len) =>
    decide (1 ≤ s.imgNat o 2 ∧ s.imgNat o 2 ≤ 1024) && decide (16 + 32 * s.imgNat o 2 ≤ len) && s.imgZero (o + 2) 14
      && (List.range (s.imgNat o 2)).all (quantEntryOk s o len)

def shapeOk (s : State) : Bool :=
  (s.imageClasses.all fun a => (netShapes s a).all fun t => sectionTensors s t.1 a t.2) && decWeightsOk s && quantOk s

/-! ### Check 8, MAPPING -/

/-- The eleven (phase, grade) pairs of a program (R131, R184). -/
def programPhases : List (Nat × Nat) := [(0, 0), (1, 0), (2, 0), (3, 0), (4, 0), (5, 0), (0, 1), (1, 1), (2, 1), (3, 1), (4, 1)]

/-- The eleven instances of a mapping class and width. -/
def programInstances (cls width : Nat) : List Nat := programPhases.map fun p => cmdInstance p.1 p.2 cls width

def allInstances : List Nat := [16, 15, 14].flatMap fun n => programInstances n 0 ++ programInstances n 1

/-- A stream: command index, length, and image offset of its first command (Table 06-1). -/
def State.streamAt (s : State) (inst core : Nat) : Option (Nat × Nat × Nat) :=
  match s.section' 9 inst with
  | none => none
  | some (o, _) =>
    let n := s.imgNat o 2
    if n ≤ core then none
    else
      let before := ((List.range core).map fun i => s.imgNat (o + 8 + 24 * i + 2) 2).foldl (· + ·) 0
      some (s.imgNat (o + 8 + 24 * core) 2, s.imgNat (o + 8 + 24 * core + 2) 2, o + 8 + 24 * n + 128 * before)

def State.imgCmd (s : State) (at_ i : Nat) : Cmd := BitVec.ofNat 1024 (s.imgNat (at_ + 128 * i) 128)

/-- One stream: inside the command memory, dealt positions as R186 asks. -/
def streamOk (s : State) (inst core : Nat) : Bool :=
  match s.section' 9 inst, s.streamAt inst core with
  | some (o, _), some (base, len, at_) =>
    let e := o + 8 + 24 * core
    decide (1 ≤ len) && decide (base + len ≤ 512) && decide (s.imgNat (e + 4) 1 ≤ 8)
      && (List.range (s.imgNat (e + 4) 1)).all fun k =>
        let i := s.imgNat (e + 8 + 2 * k) 2
        decide (base ≤ i ∧ i < base + len) && (s.imgCmd at_ (i - base)).dealt
  | _, _ => false

/-- Does a command make narrowing writes that R306 classifies: a drain, a chain output, a side-list correction, the outputs of a
softmax (R279); a descriptor may name any of these? [DEDUCED: log 264] -/
def Cmd.narrows (w : Cmd) : Bool :=
  match w.opcode with
  | 0x21 | 0x22 => (w.param 0 0 8).testBit 3 && classified (w.opFmt 0)
  | 0x40 | 0x42 => classified (w.opFmt 0)
  | 0x41 => true
  | 0x03 => w.param 0 0 8 == 0x08 && classified (w.opFmt 0)
  | _ => false

/-- The instances whose writes count: those of an ADAPT stream do not (R307). -/
def countedInstances (cls width : Nat) : List Nat := (programPhases.filter fun p => p.1 != 5).map fun p => cmdInstance p.1 p.2 cls width

/-- Tensors of QUANT that a logical core's program writes: tags of its narrowing commands in their ranges (R307). [DEDUCED: log 264] -/
def programTensors (s : State) (cls width core : Nat) : List Nat :=
  let tags := (countedInstances cls width).flatMap fun inst =>
    match s.streamAt inst core with
    | some (_, len, at_) => ((List.range len).map (s.imgCmd at_)).filterMap fun w => if w.narrows then some w.tag else none
    | none => []
  (List.range s.quantCount).filter fun t =>
    match s.quantEntry t with
    | some e => tags.any fun g => decide (s.imgNat (e + 0x0C) 2 ≤ g ∧ g ≤ s.imgNat (e + 0x0E) 2)
    | none => false

/-- See the log. [DEDUCED: log 49] -/
def tagRangesOk (s : State) : Bool :=
  disjointSpans ((List.range s.quantCount).filterMap fun t =>
    (s.quantEntry t).map fun e => (s.imgNat (e + 0x0C) 2, s.imgNat (e + 0x0E) 2 + 1 - s.imgNat (e + 0x0C) 2))

/-- Programs of one class and width (R185, R186, R307). -/
def programsOk (s : State) (cls width : Nat) : Bool :=
  (programInstances cls width).all (fun inst => match s.section' 9 inst with
    | some (o, _) => s.imgNat o 2 == cls
    | none => false) &&
  (List.range cls).all fun j =>
    (programInstances cls width).all (fun inst => streamOk s inst j)
      && disjointSpans ((programInstances cls width).filterMap fun inst => (s.streamAt inst j).map fun x => (x.1, x.2.1))
      && decide ((programTensors s cls width j).length ≤ 32)

def refcycOk (s : State) : Bool :=
  match s.section' 10 0 with
  | none => false
  | some (o, len) => allInstances.all fun inst => (List.range (len / 48)).any fun i => s.imgNat (o + 48 * i) 2 == inst

/-- Entry sizes of the nine tables. -/
def tableSizes : List Nat := [8, 8, 8, 4, 16, 32, 16, 16, 32]

/-- Is a logical cluster used by a MAP instance? -/
def State.clusterUsed (s : State) (o i : Nat) : Bool := decide (i < 64) && s.imgNat (o + i) 1 != 0xFF

/-- Offsets of the entries of table `kind` of the instance at `o`. -/
def State.entries (s : State) (o kind : Nat) : List Nat :=
  let d := o + 0x50 + 16 * (kind - 1)
  (List.range (s.imgNat (d + 4) 4)).map fun i => o + s.imgNat (d + 8) 8 + tableSizes.getD (kind - 1) 0 * i

def chanAssignOk (s : State) (o : Nat) : Bool :=
  let es := s.entries o 1
  let mode1 := s.imgNat 0x22 1 == 1
  es.length == 256 && distinct (es.map fun e => s.imgNat e 2)
    && es.all fun e => s.clusterUsed o (s.imgNat (e + 2) 1) && s.imgZero (e + 3) 5
      && (if mode1 then decide (s.imgNat e 1 < 32) && decide (4 ≤ s.imgNat (e + 1) 1 ∧ s.imgNat (e + 1) 1 < 12)
          else decide (s.imgNat e 1 < 16) && decide (s.imgNat (e + 1) 1 < 16))

def detectAssignOk (s : State) (o : Nat) : Bool :=
  let es := s.entries o 2
  !es.isEmpty && (es.all fun e => decide (s.imgNat e 2 ≤ s.imgNat (e + 2) 2) && s.clusterUsed o (s.imgNat (e + 4) 1) && s.imgZero (e + 5) 3)
    && (match es.head? with | some e => s.imgNat e 2 == 0 | none => false)
    && (match es.getLast? with | some e => s.imgNat (e + 2) 2 == 8191 | none => false)
    && (es.zip (es.drop 1)).all fun p => s.imgNat p.2 2 == s.imgNat (p.1 + 2) 2 + 1

def recvLimitOk (s : State) (o : Nat) : Bool :=
  let es := s.entries o 3
  distinct (es.map fun e => s.imgNat e 1)
    && (es.all fun e => s.clusterUsed o (s.imgNat e 1) && s.imgZero (e + 1) 1 && decide (1 ≤ s.imgNat (e + 2) 2) && s.imgZero (e + 4) 4)
    && (List.range 64).all fun i => !s.clusterUsed o i || es.any fun e => s.imgNat e 1 == i

/-- ADAPT_ASSIGN: one entry for each group that ADAPT lists; a group that ADAPT lists twice is left to check 9 (R119, R154). -/
def adaptAssignOk (s : State) (o : Nat) : Bool :=
  let es := s.entries o 4
  let keys := es.map fun e => adaptKey (s.imgNat e 1) (s.imgNat (e + 1) 1)
  distinct keys && keys.length == s.listedGroups.eraseDups.length && (s.listedGroups.all fun k => keys.contains k)
    && es.all fun e => s.clusterUsed o (s.imgNat (e + 2) 1) && s.imgZero (e + 3) 1

def dealOk (s : State) (o : Nat) : Bool :=
  (s.entries o 5).all fun e =>
    allInstances.contains (s.imgNat e 2) && decide (s.imgNat (e + 2) 1 ≤ 15) && decide (s.imgNat (e + 3) 1 ≤ 7)
      && decide (1 ≤ s.imgNat (e + 4) 1 ∧ s.imgNat (e + 4) 1 ≤ 8) && s.imgZero (e + 5) 1 && decide (1 ≤ s.imgNat (e + 6) 2) && s.imgZero (e + 14) 2

def reshardOk (s : State) (o : Nat) : Bool :=
  (s.entries o 6).all fun e =>
    let off := s.imgNat (e + 8) 8
    let n := s.imgNat (e + 16) 8
    decide (s.imgNat e 1 ≤ 5) && decide (s.imgNat (e + 1) 1 ≤ 5) && s.imgZero (e + 3) 1 && s.imgZero (e + 7) 1 && s.imgZero (e + 24) 8
      && (match s.imgNat (e + 2) 1 with
          | 0 => s.clusterUsed o (s.imgNat (e + 6) 1) && decide (off + n ≤ 0x1000000)
          | 1 => decide (off < 2 ^ 35) && decide (off % 2 ^ 33 + n ≤ 2 ^ 32)
          | _ => false)

/-- Relocations (R351). -/
def relocOk (s : State) (o : Nat) : Bool :=
  (s.entries o 7).all fun e =>
    let kind := s.imgNat (e + 3) 1
    match s.streamAt (s.imgNat e 2) (s.imgNat (e + 2) 1) with
    | none => true
    | some (_, len, at_) =>
      let op := (s.imgCmd at_ (s.imgNat (e + 4) 2)).opcode
      decide (s.imgNat (e + 4) 2 < len) && decide (kind ≤ 5)
        && (if kind = 5 then op == 0xA2 else decide (0x60 ≤ op ∧ op ≤ 0x63))
        && ((kind != 0 && kind != 1 && kind != 5) || s.clusterUsed o (s.imgNat (e + 6) 1))

/-- Scratchpad span of a ring entry. -/
def State.ringSpan (s : State) (e : Nat) : Nat × Nat := (s.imgNat (e + 4) 4, s.imgNat (e + 8) 1 * s.imgNat (e + 9) 1 * 1024)

/-- Ring entries (Table 11-3, R352). -/
def ringsOk (s : State) (o : Nat) : Bool :=
  let es := s.entries o 8
  (es.all fun e =>
    let slots := s.imgNat (e + 8) 1
    let kib := s.imgNat (e + 9) 1
    let lead := s.imgNat (e + 10) 1
    decide (s.imgNat (e + 2) 1 ≤ 15) && decide (s.imgNat (e + 3) 1 < 16) && s.imgNat (e + 4) 4 % 64 == 0 && decide (3 ≤ slots ∧ slots ≤ 16)
      && decide (1 ≤ kib ∧ kib ≤ 64) && decide (1 ≤ lead ∧ lead + 1 ≤ slots) && decide (lead ≤ 15) && decide (slots * kib ≤ 512)
      && decide ((s.ringSpan e).1 + (s.ringSpan e).2 ≤ 524288) && s.imgZero (e + 11) 5) &&
  es.all fun e =>
    let mates := es.filter fun f => s.imgNat f 2 == s.imgNat e 2 && s.imgNat (f + 2) 1 == s.imgNat (e + 2) 1
    disjointSpans (mates.map s.ringSpan) && distinct (mates.map fun f => s.imgNat (f + 3) 1 % 8)

/-- Multicast groups (R357). -/
def mcastOk (s : State) (o : Nat) : Bool :=
  let es := s.entries o 9
  distinct (es.map fun e => s.imgNat e 1) &&
  es.all fun e =>
    decide (s.imgNat (e + 1) 1 ≤ 1) &&
    (s.imgNat (e + 1) 1 == 0 ||
      (let rings := (s.entries o 8).filter fun r =>
          s.imgNat (r + 3) 1 % 8 == s.imgNat (e + 2) 1 && (s.imgNat (e + 16) 2).testBit (s.imgNat (r + 2) 1)
       decide (s.imgNat (e + 2) 1 ≤ 7) && s.clusterUsed o (s.imgNat (e + 3) 1) && s.imgNat (e + 4) 4 % 64 == 0
         && (rings.all fun r => (s.imgNat (r + 3) 1).testBit 3)
         && rings.all fun r => rings.all fun q => s.imgNat (r + 9) 1 == s.imgNat (q + 9) 1))

/-- A MAP instance's directory and tables (R128). -/
def mapOk (s : State) (inst : Nat) : Bool :=
  match s.section' 8 inst with
  | none => false
  | some (o, len) =>
    let spans := (List.range 9).map fun i =>
      (s.imgNat (o + 0x50 + 16 * i + 8) 8, tableSizes.getD i 0 * s.imgNat (o + 0x50 + 16 * i + 4) 4)
    ((List.range 9).all fun i =>
      s.imgNat (o + 0x50 + 16 * i) 2 == i + 1 && s.imgNat (o + 0x50 + 16 * i + 2) 2 == tableSizes.getD i 0)
      && (spans.all fun x => x.2 == 0 || (x.1 % 16 == 0 && decide (x.1 + x.2 ≤ len))) && disjointSpans ((0, 0xE0) :: spans)
      && chanAssignOk s o && detectAssignOk s o && recvLimitOk s o && adaptAssignOk s o && dealOk s o && reshardOk s o && relocOk s o
      && ringsOk s o && mcastOk s o

def mappingOk (s : State) : Bool :=
  (allInstances.all fun i => (s.section' 9 i).isSome) && refcycOk s && tagRangesOk s
    && ([16, 15, 14].all fun n => programsOk s n 0 && programsOk s n 1) && (List.range 4).all (mapOk s)

/-! ### Check 9, RANGE (R154) -/

/-- Is an FP32 pattern within a range of non-negative numbers given by the patterns of its ends? [DEDUCED: log 102] -/
def fpIn (v lo hi : Nat) : Bool := decide (lo ≤ v ∧ v ≤ hi) || (v == 2 ^ 31 && lo == 0)

/-- See the log. [DEDUCED: log 102] -/
def adaptOk (s : State) : Bool :=
  let p := s.adaptParam
  let groups := (List.range (p 0x16 2)).map fun i => (p (0x40 + 2 * i) 1, p (0x41 + 2 * i) 1)
  decide (4 ≤ p 0 2 ∧ p 0 2 ≤ 64) && decide (16 ≤ p 2 2 ∧ p 2 2 ≤ 1024) && decide (2048 ≤ p 4 2 ∧ p 4 2 ≤ 16384)
    && decide (64 ≤ p 6 2 ∧ p 6 2 ≤ 8192) && fpIn (p 8 4) 0x37800000 0x3C800000 && fpIn (p 0x0C 4) 0 0x3D800000 && fpIn (p 0x10 4) 0x3C23D70A 0x3F800000
    && decide (8 ≤ p 0x14 1 ∧ p 0x14 1 ≤ 32) && decide (1 ≤ p 0x15 1 ∧ p 0x15 1 ≤ 10) && fpIn (p 0x18 4) 0 0x3DCCCCCD && fpIn (p 0x1C 4) 0x3F000000 0x41A00000
    && decide (10 ≤ p 0x20 4 ∧ p 0x20 4 ≤ 3600) && decide (100 ≤ p 0x24 4 ∧ p 0x24 4 ≤ 100000)
    && ((List.range 24).all fun i => p (0x28 + i) 1 == 0)
    && decide (p 0x16 2 ≤ s.imgNat 0x25 1)
    && (groups.all fun g => decide (g.1 < 12) && (s.imgNat 0x20 2).testBit g.1 && decide (g.2 < s.imgNat 0x24 1)) && distinct groups

/-! ### The checks in order (R119) -/

/-- The order of the first check that fails; 0 when all pass. The state's image is the candidate. -/
def imageCheck (s : State) (len : Nat) : Nat :=
  if !formatOk s len then 1
  else
    match imageKey s with
    | none => 2
    | some key =>
      if !signatureOk s key then 3
      else if !layoutOk s then 4
      else if !firmwareOk s then 5
      else if !s.imageAgrees then 6
      else if !shapeOk s then 7
      else if !mappingOk s then 8
      else if !adaptOk s then 9
      else 0

end Sys2Proof.Machine
end

