-- ==== Sys2Proof/Machine/Load.lean ====
section
/-! DEFINITION. IMAGE_LOAD and the start of a job: the staging halves, set-up checks, the quarter set, programs and their
relocations, tag maps, scales, and the first slot (R118 to R120, R133, R184, R350, R351, R371, R377, R428, R580). -/

namespace Sys2Proof.Machine

/-! ### IMAGE_LOAD (R118 to R120) -/

/-- The half that does not hold the resident image. -/
def State.freeHalf (s : State) : Nat := if s.image.present then 1 - s.image.half else 0

/-- The state with a candidate copied into the free half and read as the image. -/
def withCandidate (image : List Byte) (s : State) : State :=
  let h := s.freeHalf
  { s with
    sys := s.sys.store (stagingBase h) (image.take (2 ^ 28)) false,
    image := { present := true, half := h, length := image.length } }

/-- IMAGE_LOAD: copy, check, and on success make the half resident; heads are kept only for the same digest (R151). -/
def applyImageLoad (seqno : BitVec 16) (addr : BitVec 64) (image : List Byte) (s : State) : State :=
  if !(s.job.state == .noImage || s.job.state == .ready) then wrongState s 0x01 seqno
  else if !hostRange addr.toNat image.length then jobDone s 0x01 seqno 2 0
  else
    let c := withCandidate image s
    let reason := imageCheck c image.length
    if reason = 0 then
      let d := imageDigest c
      let same := s.image.digest == d && s.adapt != {}
      let c1 := if same then restartWatches (keepHeads c) else shippedHeads c
      jobDone { c1 with
        image := { c1.image with digest := d, imageId := c.imgNat 0x10 4 },
        job := { c1.job with state := .ready } } 0x01 seqno 0 0
    else
      let id := if reason = 1 then 0 else c.imgNat 0x10 4
      jobDone (({ s with sys := c.sys }).onSys fun y => y.event Cls.IMAGE_REJECT [(2, 1, reason), (4, 4, id)]) 0x01 seqno 2 reason

/-! ### Programs (R184, R185, R350, R351) -/

/-- The physical core that plays a logical core of a logical cluster. -/
def State.physicalCore (s : State) (cluster core : Nat) : Option Nat :=
  (s.sys.workingCores (s.clusterOf s.job.qset cluster))[core]?

/-- What a relocation entry writes: the command with its GADDR or TARGET; `none` for an absent logical core. -/
def State.relocate (s : State) (e : Nat) (w : Cmd) : Option Cmd :=
  let v := s.imgNat (e + 8) 8
  let cluster := s.imgNat (e + 6) 1
  let own (a : Nat) : Cmd := BitVec.ofNat 1024 (putBits w.toNat 640 64 (s.sys.node * 2 ^ 46 + a % 2 ^ 46))
  match s.imgNat (e + 3) 1 with
  | 0 => (s.physicalCore cluster (s.imgNat (e + 7) 1)).map fun c => own (spadBase c + v)
  | 1 => some (own (peatBase (s.clusterOf s.job.qset cluster) + v))
  | 2 =>
    let q := match s.section' 8 s.job.qset with
      | some m => s.imgNat (m.1 + 0x40 + bitsOf v 33 2) 1 % 4
      | none => 0
    some (own (putBits v 33 2 q))
  | 3 => some (own v)
  | 4 => some (BitVec.ofNat 1024 (putBits w.toNat 640 64 v))
  | _ => (s.physicalCore cluster (s.imgNat (e + 7) 1)).map fun c => BitVec.ofNat 1024 (putBits w.toNat 640 16 (16 * c + v % 16))

/-- Relocation entries that name a stream. -/
def State.relocations (s : State) (inst core : Nat) : List Nat :=
  match s.mapTable s.job.qset 7 with
  | none => []
  | some (o, n) => ((List.range n).map fun i => o + 16 * i).filter fun e => s.imgNat e 2 == inst && s.imgNat (e + 2) 1 == core

/-- A relocation of a stream the job loads that names an absent logical core: (instance, logical core). -/
def State.badRelocation (s : State) : Option (Nat × Nat) :=
  (s.jobClusters.flatMap fun g =>
    let n := s.sys.mappingClass g
    (programInstances n (s.widthIndex g)).flatMap fun inst => (List.range n).map fun j => (inst, j)).find? fun p =>
      (s.relocations p.1 p.2).any fun e => (s.relocate e 0).isNone

abbrev CmdMemory := SMap Cmd

def cmdAt (m : CmdMemory) (i : Nat) : Cmd := mapGet (fun _ => (0 : BitVec 1024)) i m
def cmdPut (m : CmdMemory) (i : Nat) (w : Cmd) : CmdMemory := mapSet (fun _ => (0 : BitVec 1024)) i w m

/-- One stream into a command memory, its relocations resolved. -/
def loadStream (s : State) (inst core : Nat) (m : CmdMemory) : CmdMemory :=
  match s.streamAt inst core with
  | none => m
  | some (base, len, at_) =>
    let m1 := (List.range len).foldl (fun m i => cmdPut m (base + i) (s.imgCmd at_ i)) m
    (s.relocations inst core).foldl (fun m e =>
      let i := base + s.imgNat (e + 4) 2
      match s.relocate e (cmdAt m i) with
      | some w => cmdPut m i w
      | none => m) m1

/-- A core at job start: its program, tag map and rings; objects, latches, accumulators, Signal Unit registers and statistics
at zero (R184, R212, R225, R240, R307, R316). The Signal Unit's memories are kept. [DEDUCED: log 53] -/
def loadCore (s : State) (g j c : Nat) : Core :=
  let insts := programInstances (s.sys.mappingClass g) (s.widthIndex g)
  let k := s.core c
  let su : SignalUnit :=
    { x := k.su.x, y := k.su.y, c := k.su.c, xPoison := k.su.xPoison, yPoison := k.su.yPoison,
      xValid := k.su.xValid, yValid := k.su.yValid }
  { cm := insts.foldl (fun m inst => loadStream s inst j m) [],
    programs := insts.foldl (fun m inst => match s.streamAt inst j with
      | some x => mapSet (fun _ => (0, 0)) inst (x.1, x.2.1) m
      | none => m) [],
    tagMap := (programTensors s (s.sys.mappingClass g) (s.widthIndex g) j).filterMap fun t =>
      (s.quantEntry t).map fun e => (s.imgNat (e + 0x0C) 2, s.imgNat (e + 0x0E) 2, t),
    su := su }

/-- Every working core of the quarter set takes its program; other cores run none. [DEDUCED: log 53] -/
def loadPrograms (s : State) : State :=
  { s with cores := s.jobClusters.foldl (fun m g =>
      let ws := s.sys.workingCores g
      (List.range ws.length).foldl (fun m j =>
        mapSet coreDefault (ws.getD j 0) (loadCore s g j (ws.getD j 0)) m) m) (s.cores.map fun e => (e.1, abandon e.2)) }

/-- Scales of the QUANT section in force, and in their places (R310, R371). -/
def loadScales (s : State) : State :=
  (List.range s.quantCount).foldl (fun a t =>
    match a.quantEntry t with
    | some e => (writePlaces e (a.imgNat (e + 4) 4) a).setScale t (BitVec.ofNat 32 (a.imgNat (e + 4) 4))
    | none => a) { s with comp := { s.comp with scales := [] } }

/-- Sections whose poison makes a start fail (Table 17-7). -/
def programSections (s : State) : List (Nat × Nat) :=
  (directory s).filterMap fun e => if e.1 == 7 || e.1 == 8 || e.1 == 9 || e.1 == 10 then some (e.2.2.1, e.2.2.2) else none

/-- Address ranges of the weight copies (R512): the sections of weights as the module holds them. [DESIGN CHOICE: log 48] -/
def weightSections (s : State) : List (Nat × Nat) :=
  (directory s).filterMap fun e => if decide (1 ≤ e.1 ∧ e.1 ≤ 6) then some (stagingBase s.image.half + e.2.2.1, e.2.2.2) else none

/-! ### JOB_START (R371, R571, R580) -/

/-- Main entries and head entries of a replay schedule (Table 20-5). -/
def entrySlot (e : BitVec 128) : Nat := bitsOf e.toNat 0 48
def entryHead (e : BitVec 128) : Bool := e.getLsbD 57

/-- R572: slots in order, exactly one entry without HEAD_EVENT per slot, fields in range. -/
def scheduleOk (es : List (BitVec 128)) : Bool :=
  !es.isEmpty && ((es.zip (es.drop 1)).all fun p => decide (entrySlot p.1 ≤ entrySlot p.2))
    && (es.all fun e => (es.filter fun f => entrySlot f == entrySlot e && !entryHead f).length == 1
      && (bitsOf e.toNat 48 3 != 6) && bitsOf e.toNat 51 5 == 0 && bitsOf e.toNat 58 6 == 0 && bitsOf e.toNat 104 24 == 0
      && (!entryHead e || bitsOf e.toNat 96 8 == 1 || bitsOf e.toNat 96 8 == 2))

/-- The schedule a start takes: COUNT entries from BASE, and whether it may be used. [DEDUCED: log 55] -/
def replayStart (s : State) (schedule : List (BitVec 128)) : Bool × List (BitVec 128) :=
  if s.sys.regField 0x080000 8 1 = 0 then (true, [])
  else
    let n := s.sys.reg 0x080018
    (s.sys.regField 0x080000 0 1 == 1 && s.sys.reg 0x080010 % 4096 == 0 && hostRange (s.sys.reg 0x080010) (16 * n) && decide (n ≤ schedule.length) && scheduleOk (schedule.take n),
      schedule.take n)

/-- Detection parameters of the JOB_DET registers (R588). -/
def detOf (v : Nat) : DetParams :=
  { thresh := bitsOf v 0 8, snrMin := bitsOf v 8 8, hold := bitsOf v 16 8, sync := bitsOf v 24 8, syncBusy := bitsOf v 32 8 }

/-- Streams whose samples the ports that remain cannot carry (R459): their unit's port is down, or the port's rate is spent
by lower-numbered streams in the narrowest layout of R465. [DESIGN CHOICE: log 52] -/
def uncarried (s : State) : Nat :=
  let used := s.job.channels.foldl (fun m c => m ||| c.streams.toNat) 0
  let rate := if s.sys.regField 0x080020 2 1 = 1 then 1024 else 2048
  let portRate (p : Nat) : Nat := (if s.sys.regField 0x040000 0 2 = 0 then 25 else 100) * (s.net.port p).lanes.length
  let unitOf (st : Nat) : Option Nat := ((List.range 8).find? fun u =>
    let c := s.sys.reg (0x040108 + 16 * u)
    c.testBit 0 && c.testBit (16 + st)).map fun u => bitsOf (s.sys.reg (0x040108 + 16 * u)) 1 3
  ((List.range 32).filter fun st => used.testBit st && (match unitOf st with
    | none => true
    | some p =>
      let below := ((List.range (st + 1)).filter fun t => used.testBit t && unitOf t == some p).length
      !(s.net.port p).up || decide (portRate p * 12 * 10000 < below * rate * 292))).foldl (fun m st => m + 2 ^ st) 0

/-- Network ports up, bit p. -/
def State.netUp (s : State) : Nat := ((List.range 4).map fun p => (s.net.port p).up.toNat * 2 ^ p).foldl (· + ·) 0

/-- See the log. [DESIGN CHOICE: log 52] -/
def fhCapacity (s : State) : State :=
  let m := uncarried s
  if m = 0 then s else s.onSys fun y => y.event Cls.FH_CAPACITY [(2, 1, s.netUp), (4, 4, m)]

/-- Role of a redundant pair at the first job start after a full reset (R482, R484). [DESIGN CHOICE: log 149] -/
def startRole (s : State) : State :=
  s.onNet fun n =>
    { n with
      dupNode := false, ringPowered := s.sys.fabricOn,
      role := if !s.sys.pairOn then 0
        else if n.role = 0 then (if s.sys.sideB || n.faulted then 1 else 2) else n.role }

/-- Everything an accepted start clears or sets before programs load. -/
def startState (seq : Option (BitVec 16)) (schedule : List (BitVec 128)) (q : Nat) (s : State) : State :=
  let s1 := clampAges (contextsAtStart { s.freeAllRetained with job := { s.freeAllRetained.job with qset := q } })
  let det := (List.range 12).foldl (fun m a => mapSet detDefault a (detOf (s.sys.reg (0x080100 + 8 * a))) m) []
  let j : Job :=
    { s1.job with
      state := .starting, mode := s.sys.reg 0x080000, lock := true, startSeq := seq, lastSlot := s.job.lastSlot, phase := .done, worked := false,
      deadline := s.sys.regField 0x080028 0 16, deadlineNext := s.sys.regField 0x080028 0 16,
      fhMaxDelay := s.sys.regField 0x080028 16 16, combineWait := s.sys.regField 0x08002C 0 16,
      softHold := s.sys.regField 0x08002C 16 10, det := det, prevRatio := 256, prevCounts := [], prevComb := [], counts := [],
      batch := [], deferred := [], stepNow := none, lastStep := none, restartAt := none, noAckBefore := 0, schedule := schedule, replayPos := 0,
      replayActive := !schedule.isEmpty, prevQset := some q, restartEvent := s.job.restartEvent && seq.isNone, stopQuiet := false, headDone := [], slackFallback := false }
  let s2 := { s1 with
    job := j,
    rx := { nextHandle := s1.rx.nextHandle, nextOrder := s1.rx.nextOrder },
    decoders := [],
    soft := {},
    adapt := { s1.adapt with open_ := [], closings := [] },
    sessions := { s1.sessions with requests := [], protectedIn := [], coldInUse := [], inFlight := [] },
    comp := {},
    sys := { s1.sys with
      jobFault := none, weightPoison := false, weightRanges := weightSections s1,
      trace := { s1.sys.trace with written := 0, lost := 0, head := 0, count := 0, coreLost := [] } } }
  startRole s2

/-- The job start caches the active heads of the image's groups (R137, R512). [DESIGN CHOICE: log 272] -/
def cacheHeads (s : State) : State := { s with sys := s.imageGroups.foldl Sys.cacheHead { s.sys with headCache := [] } }

/-- Begin a start that has passed the set-up checks. [DEDUCED: log 46] -/
def beginStart (seq : Option (BitVec 16)) (schedule : List (BitVec 128)) (s : State) : State :=
  let fail (t : State) : State :=
    let t1 := { t with job := { t.job with state := .faulted, lock := true, startSeq := none } }
    match seq with
    | some n => jobDone t1 0x02 n 2 0
    | none => t1
  match s.sys.quarterSet with
  | none => fail (s.onSys fun y => y.event Cls.JOB_NO_MAPPING [(2, 1, y.lostMask), (3, 1, 0)])
  | some q =>
    let s1 := fhCapacity (startState seq schedule q s)
    match s1.badRelocation with
    | some (inst, j) => fail (s1.onSys fun y => y.event Cls.JOB_NO_MAPPING [(2, 1, y.lostMask), (3, 1, 1), (4, 2, inst), (6, 1, j)])
    | none =>
      let base := stagingBase s1.image.half
      if (programSections s1).any fun e => s1.sys.poisoned (base + e.1) e.2 then
        s1.onSys fun y => y.fault Cls.JOB_LOAD_POISON UnitCode.clusterController 0 0 base
      else
        let s2 := cacheHeads (loadWeights (loadScales (loadPrograms s1)))
        { s2 with comp := { s2.comp with participants := s2.jobCores.foldl (fun m c => flagPut m c true) [] } }

/-- JOB_START, from JOBQ or, with no SEQNO, from Heron (R371, R580). [DEDUCED: log 56] -/
def startJob (seq : Option (BitVec 16)) (schedule : List (BitVec 128)) (s : State) : State :=
  if !(s.job.state == .ready || s.job.state == .faulted) then
    (match seq with | some n => wrongState s 0x02 n | none => s)
  else
    let r := replayStart s schedule
    if s.setupOk && channelsOk s s.job.channels && r.1 then beginStart seq r.2 s
    else
      let s1 := if windowsOk s.sys then s else s.onSys fun y => y.count Cls.GUARD_CONFIG_INVALID
      match seq with
      | some n => rejectInvalid s1 0x02 n
      | none => configInvalid s1 0xFF 0x02 0

def applyJobStart (seqno : BitVec 16) (schedule : List (BitVec 128)) (s : State) : State := startJob (some seqno) schedule s

/-! ### Restart on three quarters (R377, R428) -/

/-- Records left with one copy when quarter `q` is lost. -/
def unmirrored (y : Sys) (q : Nat) : Nat :=
  ((List.range (2 ^ 20)).filter fun sid =>
    (bitsOf sid 0 2 == q || (bitsOf sid 0 2 ^^^ 1) == q) && y.registered sid).length

/-- Does an active head have a word that neither copy of the head bank gives (Table 04-13)? [DEDUCED: log 31] -/
def State.headsLost (s : State) : Bool := s.imageGroups.any fun k => s.sys.headPoisoned k .active

/-- A restarted job whose heads cannot be read faults at its first phase boundary, as poisoned weights do (Table 04-13). [DEDUCED: log 31] -/
def noteHeadBank (s : State) : State :=
  if s.job.state == .starting && s.headsLost then { s with sys := { s.sys with weightPoison := true } } else s

/-- Heron restarts a job that faulted by the loss of quarter 1, 2 or 3: heads are kept, samples and candidates go. -/
def jobRestart (s : State) : State :=
  if s.job.state == .faulted && s.job.restartEvent then
    let q := s.sys.lostMask
    let lost := if q.testBit 1 then 1 else if q.testBit 2 then 2 else 3
    let s2 := { s with
      job := { s.job with lostQuarters := BitVec.ofNat 4 q },
      sessions := { s.sessions with unmirrored := some (unmirrored s.sys lost, lost) } }
    noteHeadBank (startJob none s2.job.schedule (keepHeads s2))
  else s

end Sys2Proof.Machine
end

