-- ==== Sys2Proof/Machine/Slots.lean ====
section
/-! DEFINITION. The order of slots: the start of a slot, skipped slots and their erasures, replay entries, the first slot of
a job, the close of ingest, STEP, and what a step of air time does to the job (R80 to R82, R371, R381, R384 to R387, R406,
R428, R571 to R574). -/

namespace Sys2Proof.Machine

/-- Is the job in stepped mode (R384)? [DEDUCED: log 54] -/
def State.stepped (s : State) : Bool := s.jobMode 1 1 == 1

/-- Stepped mode between two steps: no step waits or runs. [DEDUCED: log 54] -/
def State.halted (s : State) : Bool := s.job.active && s.stepped && s.job.stepNow.isNone

/-! ### The start of a slot -/

/-- Slot `n` becomes the slot in progress and waits for its ingest; every new slot starts at the full grade (R379). -/
def resetSlot (n : Nat) (s : State) : State :=
  let j : Job :=
    { s.job with
      slot := n, phase := .ingest, worked := false, closed := 0, acked := 0, withheld := 0, fallback := false, fallbackAt := 7,
      suppressed := false, deadlinePassed := false, measured := [], refs := [], combCounts := [], projMax := 0, ackLimit := none, pinnedAt := 7,
      replayed := s.job.replayActive }
  { s with job := j, decoders := s.decoders.map fun e => (e.1, { e.2 with fullCounted := false }) }

/-- Under replay, the main entry of the slot names its grade and its acknowledgement limit (R573, Table 20-5). -/
def pinEntry (s : State) : State :=
  if s.job.replayActive then
    match s.job.schedule.findIdx? fun e => entrySlot e == s.job.slot && !entryHead e with
    | none => s
    | some i =>
      let e := s.job.schedule.getD i 0
      let limit := bitsOf e.toNat 64 16
      { s with
        job := { s.job with
          pinnedAt := bitsOf e.toNat 48 3, replayPos := i + 1,
          ackLimit := if limit = 0xFFFF then none else some limit } }
  else s

/-- Start slot `n`: CHAN follows at once when its ingest has closed. -/
def beginSlot (n : Nat) (s : State) : State :=
  let s1 := pinEntry (resetSlot n s)
  if n < s1.rx.next then startChan s1 else s1

/-! ### Skipped slots (R381) -/

/-- Erase the symbols of a burst that fell before slot `n` and have not been demodulated. -/
def eraseBurst (n : Nat) (s : State) (h : BitVec 32) : State :=
  match s.burst h with
  | none => s
  | some b =>
    let upTo := b.arrived (n * s.sys.slotLen * unitsPerNs)
    if (b.state == .synced || (b.state == .opened && !b.waiting)) && decide (b.symbols < upTo) then
      placeLlrs (s.setBurst { b with symbols := upTo }) { b with symbols := upTo }
        (List.replicate (b.bitsPerSymbol * (upTo - b.symbols)) 0) fun _ => false
    else s

/-- Slots from `from_` up to `n` are skipped: their symbols are erasures; a burst that waits for its context finds the
skipped slots that the three-slot buffer still reaches. -/
def skipSlots (from_ n : Nat) (s : State) : State :=
  if n ≤ from_ then s
  else
    let s1 := s.rx.bursts.foldl (fun a b => eraseBurst n a b.handle) s
    let first := max from_ (n - 3)
    let kept := s1.rx.skipped.filter fun j => decide (n ≤ j + 3)
    { s1 with rx := { s1.rx with skipped := kept ++ (List.range (n - first)).map fun i => first + i } }

/-! ### Replay (R571 to R574) -/

/-- Earliest slot whose samples the module has or will have. -/
def State.earliestSlot (s : State) : Nat := s.rx.slots.foldl min s.rx.next

/-- Will the slot be processed by the schedule: its main entry says so and its samples are or will be here? -/
def State.named (s : State) (n : Nat) : Bool :=
  decide (s.earliestSlot ≤ n) && s.job.schedule.any fun e => entrySlot e == n && !entryHead e && e.getLsbD 56

/-- The next slot that entries from position `pos` on name for processing; entries passed over whose slots are gone, or
whose head events have no boundary, raise REPLAY_DIVERGED. -/
def replaySeek : Nat → List (BitVec 128) → State → State × Option Nat
  | _, [], s => (s, none)
  | pos, e :: es, s =>
    if entryHead e then
      replaySeek (pos + 1) es (if s.named (entrySlot e) then s else s.onSys fun y => y.replayDiverged (entrySlot e) 3 pos)
    else if e.getLsbD 56 then
      if s.named (entrySlot e) then (s, some (entrySlot e))
      else replaySeek (pos + 1) es (s.onSys fun y => y.replayDiverged (entrySlot e) 2 pos)
    else replaySeek (pos + 1) es s

/-- Position of the first entry whose slot is at least `n`. [DEDUCED: log 212] -/
def State.schedulePos (s : State) (n : Nat) : Nat := (s.job.schedule.takeWhile fun e => decide (entrySlot e < n)).length

/-- After the last entry replay ends and the monitor decides freely. [DEDUCED: log 63] -/
def endReplay (s : State) : State :=
  let last := match s.job.schedule.getLast? with | some e => entrySlot e | none => 0
  let n := s.job.schedule.length
  ({ s with job := { s.job with replayActive := false, replayPos := n } }).onSys fun y =>
    y.event Cls.REPLAY_END [(2, 6, last % 2 ^ 48), (8, 4, n % 2 ^ 32)]

/-- The slot that the schedule names next from position `p` on; `none` once it has ended. [DEDUCED: log 212] -/
def replayFrom (p : Nat) (s : State) : State × Option Nat :=
  let r := replaySeek p (s.job.schedule.drop p) s
  match r.2 with
  | some m => (r.1, some m)
  | none => (endReplay r.1, none)

/-! ### The first slot of a job (R371, R377, R428) -/

/-- The first processed slot: the first that starts from now on, or the first that the schedule names from there. [DEDUCED: log 55] -/
def firstOf (s : State) : State × Nat :=
  let n := s.sys.slotOf s.sys.now + 1
  if s.job.replayActive then
    let t := { s with rx := { s.rx with next := n, slots := [] } }
    -- named slots that have gone raise REPLAY_DIVERGED, but for a restart, which resumes at its first slot (Table 20-6)
    let r := replayFrom (if s.job.restartEvent then s.schedulePos n else 0) t
    (r.1, r.2.getD n)
  else (s, n)

/-- STARTING becomes RUNNING: JOB_RUNNING, for a restart JOB_RESTARTED and SESSION_UNMIRRORED too, and the completion of the
start. [DEDUCED: log 55] -/
def jobRunning (s : State) : State :=
  if s.job.state == .starting && s.sys.jobFault.isNone then
    let f := firstOf s
    let n := f.2
    let s1 := { f.1 with
      job := { f.1.job with state := .running, firstSlot := n, startSeq := none, phase := .done, restartEvent := false, afterSkip := false },
      rx := { f.1.rx with next := n, slots := [], ingest := [], received := [], skipped := [] },
      sessions := { f.1.sessions with unmirrored := none } }
    let s2 := s1.onSys fun y => y.event Cls.JOB_RUNNING [(2, 6, n % 2 ^ 48), (8, 1, s.job.qset)]
    let s3 := if s.job.restartEvent then
        s2.onSys fun y => y.event Cls.JOB_RESTARTED [(2, 6, n % 2 ^ 48), (8, 1, s.job.qset), (9, 1, s.job.lostQuarters.toNat)]
      else s2
    let s4 := match s.sessions.unmirrored with
      | some (count, q) => s3.onSys fun y => y.event Cls.SESSION_UNMIRRORED [(2, 4, count), (6, 1, q)]
      | none => s3
    let s5 := match s.job.startSeq with
      | some q => jobDone s4 0x02 q 0 0
      | none => s4
    if s5.stepped then s5 else beginSlot n s5
  else s

/-! ### Close of ingest (R80 to R82) -/

/-- Has every sample of the slot been received? -/
def State.ingestFull (s : State) (n : Nat) : Bool :=
  s.sys.configuredStreams.all fun st => decide (s.sys.streamSamples ≤ natAt s.rx.received (streamKey n st))

/-- Runs of samples of a stream that ingest of slot `n` has not received: their lengths. -/
def State.missingRuns (s : State) (n st : Nat) : List Nat :=
  let l := mapGet (fun _ => []) (streamKey n st) s.rx.ingest
  let size := s.sys.streamSamples
  let here (i : Nat) : Bool := l.any fun e => e.1 == i
  let starts := (List.range size).filter fun i => !here i && (i == 0 || here (i - 1))
  starts.map fun i => ((List.range (size - i)).takeWhile fun k => !here (i + k)).length

/-- Fewest and most eCPRI messages that could have carried what is missing of a slot: a message carries 1 to 2,400 samples (Table 16-3). [DEDUCED: log 262] -/
def State.missingMessages (s : State) (n : Nat) : Nat × Nat :=
  (s.sys.configuredStreams.flatMap fun st => s.missingRuns n st).foldl (fun a len => (a.1 + (len + 2399) / 2400, a.2 + len)) (0, 0)

/-- Ingest of the slot closes when all is received or FH_MAX_DELAY after its end; what is missing reads as zero (R81), and the eCPRI
messages concerned are counted: `missing` of them, held to the number that what is missing allows. The slot buffer keeps the three
most recent slots. [DEDUCED: log 262] -/
def ingestClose (missing : BitVec 32) (s : State) : State :=
  let n := s.rx.next
  let full := s.ingestFull n
  let bounds := s.missingMessages n
  if s.job.active && (full || decide ((n + 1) * s.sys.slotLen + s.job.fhMaxDelay * 1000 ≤ s.sys.now)) then
    let kept := (s.rx.slots ++ [n]).filter fun j => decide (n < j + 3)
    let s1 := { s with
      sys := if full then s.sys else s.sys.countN Cls.FH_MISSING (max bounds.1 (min bounds.2 missing.toNat)),
      rx := { s.rx with
        next := n + 1, slots := kept,
        ingest := mapFilter (fun k => decide (n < k / 32 + 3)) s.rx.ingest,
        received := mapFilter (fun k => decide (n < k / 32 + 3)) s.rx.received } }
    if s1.job.phase == .ingest && s1.job.slot == n && (!s1.stepped || s1.job.stepNow.isSome) then startChan s1 else s1
  else s

/-! ### STEP (R384 to R387) -/

/-- Accept a STEP: one whose slot has left the slot buffer, or begins before the last step of air time, is STALE. Its changes apply at once, slots without a STEP are skipped, and its slot starts. [DEDUCED: log 60, 66] -/
def applyStep (seqno : BitVec 16) (slot : BitVec 48) (leaves joins : List (BitVec 20)) (listAddr : BitVec 64) (s : State) :
    State :=
  if s.job.state != .running || !s.stepped then wrongState s 0x06 seqno
  else
    let n := slot.toNat
    if decide (8192 < leaves.length) || decide (8192 < joins.length)
        || !hostRange listAddr.toNat (4 * (leaves.length + joins.length)) then
      rejectInvalid s 0x06 seqno
    else if n * s.sys.slotLen < s.job.noAckBefore then jobDone s 0x06 seqno 4 0
    else if (match s.job.lastStep with | some l => decide (n ≤ l) | none => false) then jobDone s 0x06 seqno 2 0
    else if decide (n < s.rx.next) && !s.rx.slots.contains n then jobDone s 0x06 seqno 4 0
    else
      let from_ := match s.job.lastStep with | some l => l + 1 | none => s.job.firstSlot
      let c : StepCmd := { seqno := seqno, slot := n, leaves := leaves, joins := joins, listAddr := listAddr }
      let r := stepChanges c (skipSlots from_ n s)
      let s1 := { r.1 with
        job := { r.1.job with stepNow := some { c with detail := r.2 }, lastStep := some n, afterSkip := decide (from_ < n) },
        sys := r.1.sys.countN Cls.STEP_MISSING (n - from_) }
      beginSlot n s1

/-! ### A step of air time (R406) -/

/-- The step is a discontinuity for the job: bursts go, the slot buffer is empty, and slot order restarts at the first slot
that begins after the step. [DEDUCED: log 66] -/
def timeStepJob (s : State) : State :=
  let n := s.sys.slotOf s.sys.now + 1
  let s1 := s.discardWhere Cls.TIME_STEP_DISCARD Burst.active
  let s2 := { s1 with
    rx := { s1.rx with
      slots := [], ingest := [], received := [], samples := [], scaled := [], skipped := [], searched := [], next := n },
    job := { s1.job with noAckBefore := s.sys.now, lastStep := if s.job.active then some (n - 1) else none } }
  if !s.job.active then s2
  else if s.stepped then
    match s.job.stepNow with
    | none => s2
    | some c =>
      if s.job.phase == .ingest && decide (c.slot < n) then
        jobDone { s2 with job := { s2.job with stepNow := none, phase := .done } } 0x06 c.seqno 4 0
      else s2
  else if s.job.phase != .ingest then { s2 with job := { s2.job with restartAt := some n } }
  else
    let s3 := { s2 with job := { s2.job with afterSkip := false } }
    if s3.job.replayActive then
      let r := replayFrom (s3.schedulePos s3.job.slot) s3
      beginSlot (r.2.getD n) r.1
    else beginSlot n s3

end Sys2Proof.Machine
end

