-- ==== Sys2Proof/Machine/Guard.lean ====
section
/-! DEFINITION. The Sluice (ch. 18): mutes, the nine checks of Table 18-2, duty history, downlink framing, anchored frames,
self-test, FAULT_N, and the hand-over of frames (R445, R446, R467, R486, R516 to R524, R534). -/

namespace Sys2Proof.Machine

/-! ### Mutes (R404, R405, R521 to R523) -/

/-- MASTER_EN as the Sluice reads it: off in module stop and after a word of it lost its majority (R533, Table 17-2). -/
def State.masterOn (s : State) : Bool := s.sys.regField 0x060000 0 1 == 1 && !s.heron.moduleStop && !s.sluice.masterOff

/-- Is any mute of GUARD_STATUS in force? -/
def State.muted (s : State) : Bool :=
  s.sluice.muteViolation || s.time.timingUnsafe || s.time.stepMuteEnd.isSome || s.sluice.muteClock || s.sluice.muteSelftest
    || !s.masterOn

/-- Role 1 of a redundant pair: frames are discarded after the checks (R486). -/
def State.standby (s : State) : Bool := s.sys.pairOn && s.net.role == 1

/-- VLAN tag of fronthaul transmissions (ETH_FH_CFG). -/
def Sys.fhTag (y : Sys) : Option Nat :=
  let r := y.reg 0x040060
  if r.testBit 0 then some (bitsOf r 1 12 + bitsOf r 13 3 * 2 ^ 13) else none

/-- PC_ID of a downlink stream of a radio unit (R463). -/
def Sys.downlinkPc (y : Sys) (unit stream : Nat) : BitVec 16 :=
  BitVec.ofNat 16 (bitsOf (y.reg (0x040108 + 16 * unit)) 8 8 * 256 + 0x80 + stream % 32)

def Sys.ruPort (y : Sys) (unit : Nat) : Nat := bitsOf (y.reg (0x040108 + 16 * unit)) 1 3
def Sys.ruMac (y : Sys) (unit : Nat) : Nat := y.reg (0x040100 + 16 * unit) % 2 ^ 48

def macOfPort (y : Sys) (p : Nat) : Nat := y.reg (0x040010 + 8 * p) % 2 ^ 48

/-- Pad a frame to the 60 bytes that Ethernet asks for. [DEDUCED: log 154] -/
def padFrame (bs : List Byte) : List Byte := bs ++ List.replicate (60 - bs.length) 0

/-- Bytes of the VLAN tag of fronthaul transmissions. -/
def tagBytes (y : Sys) : List Byte :=
  match y.fhTag with
  | some t => bytesBE 2 0x8100 ++ bytesBE 2 t
  | none => []

/-- An eCPRI message of a type in its Ethernet frame: revision 1, not concatenated, every field big-endian (R4, R463). -/
def Sys.ecpriFrame (y : Sys) (port mac type : Nat) (msg : List Byte) : List Byte :=
  padFrame (bytesBE 6 mac ++ bytesBE 6 (macOfPort y port) ++ tagBytes y ++ bytesBE 2 0xAEFE
    ++ [0x10, BitVec.ofNat 8 type] ++ bytesBE 2 msg.length ++ msg)

/-- PC_ID or RTC_ID and SEQ_ID of message `i` of a frame: a sequence number, E = 1, sub-sequence 0 (R464). [UNVERIFIED: log 261] -/
def messageIds (y : Sys) (f : PassedFrame) (unit i : Nat) : List Byte :=
  let pc := (y.downlinkPc unit f.stream).toNat
  bytesBE 2 pc ++ [Config.iqSequence pc f.frameId i, 0x80]

/-- The control message of a frame (R467); with no samples it cancels the frame (R522). -/
def controlMessage (y : Sys) (f : PassedFrame) (unit samples : Nat) : Sent :=
  .frame (y.ruPort unit) (y.ecpriFrame (y.ruPort unit) (y.ruMac unit) 2
    (messageIds y f unit 0 ++ bytesBE 2 f.channel.toNat ++ bytesBE 2 f.frameId ++ bytesBE 8 f.start ++ bytesBE 4 samples))

/-- A mute cancels every framed frame whose ramp-down has not ended (R522). -/
def enforceMute (s : State) : State :=
  if s.muted then
    let live (f : PassedFrame) : Bool := f.unit.isSome && !f.cancelled && decide (s.sys.now < f.finish)
    let out := (s.sluice.passed.filter live).filterMap fun f => f.unit.map fun u => controlMessage s.sys f u 0
    { s with
      sys := { s.sys with sent := s.sys.sent ++ out },
      sluice := { s.sluice with passed := s.sluice.passed.map fun f => if live f then { f with cancelled := true } else f } }
  else s

/-! ### FAULT_N (R534, R484) -/

/-- FAULT_N asserts until full reset; a paired module that holds the active role gives it up. -/
def assertFault (s : State) : State :=
  { s with
    pins := { s.pins with faultN := false },
    net := { s.net with faulted := true, role := if s.net.role = 2 then 1 else s.net.role } }

/-! ### Duty history (R519, R520) -/

/-- See the log. [DEDUCED: log 145] -/
def bucketKey (bin second : Nat) : Nat := bin * 3600 + second % 3600

/-- Sluice second: 10^9 ns of increments, in 2^-32 ns. -/
def sluiceSecond : Nat := 1000000000 * 2 ^ 32

/-- Add to a bucket, which saturates at 255, and to the sum, which takes the whole charge: saturation errs toward refusal. [DEDUCED: log 145] -/
def chargeBin (advance : Bool) (charge : Nat) (u : Sluice) (bin : Nat) : Sluice :=
  let old := if advance then natAt u.advance bin else natAt u.buckets (bucketKey bin u.second)
  let new := min 255 (old + charge)
  let sums := natPut u.sums bin (natAt u.sums bin + charge)
  if advance then { u with advance := natPut u.advance bin new, sums := sums }
  else { u with buckets := natPut u.buckets (bucketKey bin u.second) new, sums := sums }

/-- Bins of a frame. -/
def binsOf (first n : Nat) : List Nat := (List.range n).map fun i => first + i

/-- The window registers: FIRST_BIN, LAST_BIN, VALID, LEVEL_MAX, MAX_MS, DUTY_MAX, PRELOAD (Table 18-3). -/
def Sys.winBins (y : Sys) (n : Nat) : Nat := y.reg (0x060100 + 16 * n)
def Sys.winDuty (y : Sys) (n : Nat) : Nat := y.reg (0x060108 + 16 * n)
def Sys.winHolds (y : Sys) (n first count : Nat) : Bool :=
  (y.winBins n).testBit 31 && decide (bitsOf (y.winBins n) 0 13 ≤ first) && decide (first + count ≤ bitsOf (y.winBins n) 16 13 + 1)

/-- The window of a frame: the lowest VALID window that holds all its bins. -/
def Sys.windowOf (y : Sys) (first count : Nat) : Option Nat := (List.range 16).find? fun n => y.winHolds n first count

/-- Preload of a bin: the largest PRELOAD of the VALID windows that hold it, 0xFFFFF standing for DUTY_MAX (R520). -/
def Sys.preloadOf (y : Sys) (bin : Nat) : Nat :=
  (((List.range 16).filter fun n => y.winHolds n bin 1).map fun n =>
    let p := bitsOf (y.winDuty n) 32 20
    if p = 0xFFFFF then bitsOf (y.winDuty n) 0 20 else p).foldl max 0

/-- Duty sum of a bin as check 9 takes it. -/
def State.dutySum (s : State) (bin : Nat) : Nat :=
  natAt s.sluice.sums bin + (if s.sluice.preloadActive then s.sys.preloadOf bin else 0)

/-- The sum of a bin from its buckets. -/
def sumBuckets (u : Sluice) (bin : Nat) : Nat :=
  (u.buckets.filter fun e => e.1 / 3600 == bin).foldl (fun a e => a + e.2) (natAt u.advance bin)

/-- An uncorrectable bucket word saturates its 8 buckets and the sum is recomputed; an uncorrectable sum blocks the bin
while it is recomputed (R524). -/
def guardErrors (i : SluiceIn) (s : State) : State :=
  let s1 := i.bucketUe.foldl (fun a e =>
    let bin := e.1.toNat
    let u := a.sluice
    let b := (List.range 8).foldl (fun m k => natPut m (bucketKey bin (8 * e.2.toNat + k)) 255) u.buckets
    let u1 := { u with buckets := b }
    { a with
      sluice := { u1 with sums := natPut u1.sums bin (sumBuckets u1 bin) },
      sys := a.sys.fault Cls.GUARD_UE UnitCode.sluice 0 0 bin }) s
  i.sumUe.foldl (fun a bin =>
    { a with
      sluice := { a.sluice with blocked := flagPut a.sluice.blocked bin.toNat true },
      sys := a.sys.fault Cls.GUARD_UE UnitCode.sluice 0 0 bin.toNat }) (s1.onSys fun y => y.countN Cls.CE_GUARD i.corrected)

/-- A bin's sum has been recomputed from its buckets. -/
def sumRecomputed (bin : Nat) (s : State) : State :=
  if flagAt s.sluice.blocked bin then
    { s with
      sluice := { s.sluice with
        blocked := flagPut s.sluice.blocked bin false, sums := natPut s.sluice.sums bin (sumBuckets s.sluice bin) } }
  else s

/-- A new Sluice second: the bucket that leaves the window leaves every sum, and the advance bucket takes its place. -/
def newSluiceSecond (s : State) : State :=
  if s.sluice.released && decide (sluiceSecond ≤ s.sluice.accum) then
    let u := s.sluice
    let n := (u.second + 1) % 3600
    let bins := (u.sums.map Prod.fst ++ u.advance.map Prod.fst).eraseDups
    let u1 := bins.foldl (fun a bin =>
      let left := natAt a.buckets (bucketKey bin n)
      { a with
        sums := natPut a.sums bin (natAt a.sums bin - left),
        buckets := natPut a.buckets (bucketKey bin n) (natAt a.advance bin) }) u
    { s with sluice := { u1 with advance := [], second := n, seconds := u.seconds + 1, accum := u.accum - sluiceSecond } }
  else s

def preloadEnd (s : State) : State :=
  if s.sluice.preloadActive && decide (3600 ≤ s.sluice.seconds) then
    { s with sluice := { s.sluice with preloadActive := false } }
  else s

/-! ### The checks (R518, Table 18-2) -/

/-- Does the phase change from `a` to `b` exceed 3π/4 in magnitude? b · conj(a) then has a negative real part larger than
its imaginary part; a pair with a zero sample is skipped. -/
def deviates (a b : Int × Int) : Bool :=
  let re := b.1 * a.1 + b.2 * a.2
  let im := b.2 * a.1 - b.1 * a.2
  a != (0, 0) && b != (0, 0) && decide (re < 0) && decide (im.natAbs < re.natAbs)

def anyDeviation : List (Int × Int) → Bool
  | a :: b :: l => deviates a b || anyDeviation (b :: l)
  | _ => false

/-- Is the RMS magnitude of a block above `limit`? -/
def blockLoud (limit : Nat) (l : List (Int × Int)) : Bool :=
  decide (limit * limit * l.length < (l.map fun x => x.1.natAbs ^ 2 + x.2.natAbs ^ 2).foldl (· + ·) 0)

/-- Blocks of 64 samples, the last shorter. -/
def anyLoud (limit : Nat) (l : List (Int × Int)) : Bool :=
  (List.range ((l.length + 63) / 64)).any fun i => blockLoud limit ((l.drop (64 * i)).take 64)

/-- Air time of a frame with its ramp-down, in 1/384 ns. -/
def descUnits (d : SluiceDesc) : Nat :=
  let p := profileOf d.profile
  downlinkSymbols (downlinkDataSymbols p (d.lenM1 + 1)) * symbolTime p.width

/-- Charge in 4 ms units, rounded up. -/
def dutyCharge (d : SluiceDesc) : Nat := (descUnits d + 4000000 * unitsPerNs - 1) / (4000000 * unitsPerNs)

/-- A frame's samples as the Sluice receives them. -/
def HandedFrame.received (f : HandedFrame) (i : SluiceIn) : List (Int × Int) :=
  (List.range (f.samples.length - i.missing)).map fun k =>
    match i.changed.find? fun e => e.1 == k with
    | some e => e.2
    | none => f.samples.getD k (0, 0)

/-- First failing check of a frame, 0 when it passes. Checks 3, 7 and 8 are violations. [DEDUCED: log 146] -/
def State.sluiceCheck (s : State) (d : SluiceDesc) (samples : List (Int × Int)) (poison : Bool) : Nat :=
  let p := profileOf d.profile
  let first := d.firstBin.toNat
  let finish := d.start + frameNs d.profile (d.lenM1 + 1)
  if s.muted then 1
  else if poison then 2
  else if p.width != channelWidth d.channel || samples.length != downlinkSamples (downlinkDataSymbols p (d.lenM1 + 1)) then 3
  else
    match s.sys.windowOf first d.width with
    | none => 4
    | some w =>
      if !(decide (s.sys.now + 150000 ≤ d.start) && decide (d.start ≤ s.sys.now + 2 * s.sys.slotLen))
          || s.sluice.passed.any (fun f => decide (first < f.firstBin + f.bins ∧ f.firstBin < first + d.width
              ∧ d.start < f.finish ∧ f.start < finish)) then 5
      else if bitsOf (s.sys.winBins w) 48 10 * 1000000 * unitsPerNs < descUnits d then 6
      else if anyDeviation samples then 7
      else if anyLoud (bitsOf (s.sys.winBins w) 32 16) samples then 8
      else
        let bins := binsOf first d.width
        if bins.any (flagAt s.sluice.blocked) then 9
        else if bitsOf (s.sys.winDuty w) 0 20 < ((bins.map s.dutySum).foldl max 0) + dutyCharge d then 9
        else 0

/-! ### Completion of command frames (R446) -/

/-- A DL_COMMAND completes; AIR_TIME is `at_`. [DEDUCED: log 93] -/
def dlDone (ring : Nat) (seqno : BitVec 16) (status reason at_ : Nat) (s : State) : State :=
  s.onSys fun y => (y.count Cls.COMPLETION).post
    { completion := true, kind := 2, cls := Cls.COMPLETION,
      record := mkRecord [(0, 2, Cls.COMPLETION), (2, 1, ring), (3, 1, 0x30), (4, 2, seqno.toNat), (6, 1, status),
                          (7, 1, reason), (8, 8, at_)] }

/-- See the log. [DEDUCED: log 93; DESIGN CHOICE: log 148] -/
def handedDone (f : HandedFrame) (status reason at_ : Nat) (s : State) : State :=
  if f.command then dlDone f.ring f.seqno status reason at_ s else s

/-- An acknowledgement that passed releases the session's earliest-accepted anchored frame, OFFSET after its ramp-down; one
of another air class ends with reason CLASS (R445). -/
def releaseAnchored (f : HandedFrame) (s : State) : State :=
  if f.command then s
  else
    match s.downlink.held.findIdx? fun h => h.anchored && !h.released && h.shortId == f.shortId with
    | none => s
    | some i =>
      match s.downlink.held[i]? with
      | none => s
      | some h =>
        if (profileOf h.profile).airClass != (profileOf f.desc.profile).airClass then
          endFrame 9 { s with downlink := { s.downlink with held := s.downlink.held.eraseIdx i } } h
        else
          let h' := { h with released := true, channel := f.desc.channel, start := f.finish + h.offset * 1000 }
          { s with downlink := { s.downlink with held := s.downlink.held.set i h' } }

/-- Samples in FORMAT 0: I, then Q, each a big-endian INT16 (R465). -/
def iqBytes (l : List (Int × Int)) : List Byte := l.flatMap fun x => bytesBE 2 (ofSigned 16 x.1) ++ bytesBE 2 (ofSigned 16 x.2)

/-- IQ messages of a frame, at most 2,048 samples each: the IQ header of Table 16-3, then the samples. [DESIGN CHOICE: log 91] -/
def iqMessages (y : Sys) (f : PassedFrame) (unit : Nat) (samples : List (Int × Int)) : List Sent :=
  (List.range ((samples.length + 2047) / 2048)).map fun i =>
    let part := (samples.drop (2048 * i)).take 2048
    .frame (y.ruPort unit) (y.ecpriFrame (y.ruPort unit) (y.ruMac unit) 0
      (messageIds y f unit (i + 1) ++ bytesBE 4 f.frameId ++ bytesBE 3 (2048 * i) ++ [0] ++ bytesBE 2 part.length ++ [0, 0] ++ iqBytes part))

/-- The radio unit and stream that carry a channel's downlink: those of the lowest stream of its antenna group (R467). -/
def State.downlinkUnit (s : State) (ch : BitVec 16) : Option (Nat × Nat) :=
  match s.channelCfg ch with
  | none => none
  | some c =>
    match (List.range 32).find? fun i => c.streams.getLsbD i with
    | none => none
    | some st => ((List.range 8).find? fun u =>
        let r := s.sys.reg (0x040108 + 16 * u)
        r.testBit 0 && r.testBit (16 + st)).map fun u => (u, st)

/-- A frame passes: it is charged, framed unless this is the standby side, and an acknowledgement releases an anchored
frame. [DEDUCED: log 146] -/
def passFrame (f : HandedFrame) (samples : List (Int × Int)) (s : State) : State :=
  let d := f.desc
  let adv := decide (sluiceSecond ≤ s.sluice.accum + (d.start - s.sys.now) * 2 ^ 32)
  let u := (binsOf d.firstBin.toNat d.width).foldl (chargeBin adv (dutyCharge d)) s.sluice
  let s1 := { s with sluice := u }
  let p : PassedFrame := { firstBin := d.firstBin.toNat, bins := d.width, start := d.start, finish := f.finish, channel := d.channel }
  if s.standby then
    let s2 := { s1 with sluice := { u with passed := u.passed ++ [p] }, sys := s1.sys.count Cls.DL_STANDBY }
    releaseAnchored f (handedDone f 5 11 s.sys.now s2)
  else
    let s2 := match s.downlinkUnit d.channel with
      | none => { s1 with sluice := { u with passed := u.passed ++ [p] } }
      | some (unit, st) =>
        let id := natAt s.net.ruFrames unit
        let q := { p with unit := some unit, stream := st, frameId := id }
        { s1 with
          sluice := { u with passed := u.passed ++ [q] },
          net := { s1.net with ruFrames := natPut s1.net.ruFrames unit ((id + 1) % 2 ^ 16) },
          sys := { s1.sys with
            sent := s1.sys.sent ++ controlMessage s.sys q unit samples.length :: iqMessages s.sys q unit samples } }
    releaseAnchored f (handedDone f 0 0 d.start s2)

/-- GUARD_LAST of a refusal or a violation. -/
def noteLast (d : SluiceDesc) (check : Nat) (violation : Bool) (s : State) : State :=
  { s with sluice := { s.sluice with lastChannel := d.channel, lastCheck := check, lastViolation := violation } }

/-- Check the oldest frame handed to the Sluice. [DEDUCED: log 146] -/
def checkFrame (i : SluiceIn) (s0 : State) : State :=
  match s0.downlink.handed with
  | [] => guardErrors i s0
  | f :: rest =>
    let s1 := guardErrors i { s0 with downlink := { s0.downlink with handed := rest } }
    let s := { s1 with sluice := { s1.sluice with passed := s1.sluice.passed.filter fun p => decide (s1.sys.now < p.finish) } }
    let c := s.sluiceCheck f.desc (f.received i) i.poison
    if c = 0 then passFrame f (f.received i) s
    else if c = 1 then handedDone f 5 4 s.sys.now (s.onSys fun y => y.count Cls.DL_MUTED)
    else if c = 3 || c = 7 || c = 8 then
      let s2 := noteLast f.desc c true s
      let s3 := { s2 with
        sluice := { s2.sluice with muteViolation := true },
        sys := s2.sys.fault Cls.GUARD_VIOLATION UnitCode.sluice 0 0 (f.desc.channel.toNat + c * 2 ^ 16) }
      enforceMute (handedDone f 5 5 s.sys.now s3)
    else
      let s2 := (noteLast f.desc c false s).onSys fun y => y.count Cls.DL_GUARD
      let s3 := if c = 2 then s2.onSys fun y => y.count Cls.DL_POISON else s2
      handedDone f 5 5 s.sys.now s3

/-! ### Hand-over (R517) -/

/-- The earliest-accepted command frame whose start lies within two slots goes to the Sluice. -/
def handOver (s : State) : State :=
  match s.downlink.held.findIdx? fun h => (!h.anchored || h.released) && decide (h.start ≤ s.sys.now + 2 * s.sys.slotLen) with
  | none => s
  | some i =>
    match s.downlink.held[i]? with
    | none => s
    | some h =>
      let f : HandedFrame :=
        { command := true, ring := h.ring, seqno := h.seqno, shortId := h.shortId, seq := h.seq, body := h.body,
          desc := sluiceDesc h.channel h.profile h.lenM1 h.start }
      State.noteDownlink h.shortId (frameNs h.profile (h.lenM1 + 1))
        { s with downlink := { s.downlink with held := s.downlink.held.eraseIdx i, handed := s.downlink.handed ++ [f] } }

/-- Anchored frames held for HOLD after their acceptance end with reason EXPIRED (R445). -/
def holdExpiry (s : State) : State :=
  s.endFrames 6 fun f => f.anchored && !f.released && decide (f.expires ≤ s.sys.now)

/-! ### Self-test (R523) -/

/-- One self-test frame; `defect`: it passed, or the wrong check refused it. -/
def selfTest (defect : Bool) (s : State) : State :=
  let u := { s.sluice with
    runs := s.sluice.runs + 1, nextKind := (s.sluice.nextKind + 1) % 6, lastRun := s.sys.slotOf s.sys.now }
  let s1 := { s with sluice := u }
  if defect then
    let s2 := { s1 with
      sluice := { u with failed := true, muteSelftest := true },
      sys := s1.sys.fault Cls.GUARD_SELFTEST_FAIL UnitCode.sluice 0 0 s.sluice.nextKind }
    enforceMute (assertFault s2)
  else s1

/-- A self-test frame is due every 1,000 slots. -/
def selfTestDue (defect : Bool) (s : State) : State :=
  let n := s.sys.slotOf s.sys.now
  if s.sluice.released && (decide (s.sluice.lastRun + 1000 ≤ n) || decide (n < s.sluice.lastRun)) then selfTest defect s else s

/-- A write of GUARD_MUTE_CLEAR. -/
def muteClear (v : Nat) (s : State) : State :=
  if v.testBit 0 then { s with sluice := { s.sluice with muteViolation := false } } else s

end Sys2Proof.Machine
end

