-- ==== Sys2Proof/Machine/TimeBase.lean ====
section
/-! DEFINITION. The time unit and the servo (ch. 13): ticks, increments, steps of air time, samples, servo states, PPS, and
the Sluice's clock monitor (R389 to R409, R521). -/

namespace Sys2Proof.Machine

/-! ### The counter (R389 to R392) -/

def incrOff : Nat := 0x050008

/-- The increment that the time unit adds, 8.32 ns: the majority of its copies, or the last majority value (Table 17-2). -/
def Sys.increment (y : Sys) : Nat := y.reg incrOff % 2 ^ 40

/-- R390: 2.0 ns ± 500 ppm. -/
def incrOk (v : Nat) : Bool := decide (0x01FFBE76C9 ≤ v) && decide (v ≤ 0x0200418937)

/-- Set the increment, or refuse it and count. -/
def setIncrement (v : Nat) (s : State) : State :=
  if incrOk v then s.onSys fun y => y.setReg incrOff v
  else s.onSys fun y => y.count Cls.TIME_INCR_RANGE

def State.servoOn (s : State) : Bool := s.sys.regField 0x050000 0 1 == 1
def State.ppsSource (s : State) : Bool := s.sys.regField 0x050000 1 1 == 1

/-- A host write of the increment (R393): discarded while SERVO_EN is set, refused out of range. -/
def writeIncrement (v : Nat) (s : State) : State :=
  if s.servoOn then s else setIncrement (v % 2 ^ 40) s

/-! ### Servo states (Table 13-3) -/

def Servo.code : Servo → Nat
  | .free => 0
  | .acquiring => 1
  | .locked => 2
  | .holdover => 3
  | .lapsed => 4

/-- Enter a state: TIME_STATE, the lock count, TIMING_UNSAFE (R404), the holdover timer, the increment. -/
def enterServo (n : Servo) (s : State) : State :=
  if s.time.servo == n then s
  else
    let t := s.time
    let t1 := { t with
      servo := n,
      lockCount := if n == .locked then t.lockCount else 0,
      timingUnsafe := t.timingUnsafe || n == .free || n == .acquiring || n == .lapsed,
      holdoverStart := if n == .holdover then s.sys.now else t.holdoverStart,
      lockedAt := if n == .locked then s.sys.now else t.lockedAt }
    let s1 := ({ s with time := t1 }).onSys fun y =>
      y.event Cls.TIME_STATE [(2, 1, n.code), (3, 1, t.servo.code), (8, 8, y.now)]
    let s2 := if (n == .holdover || n == .lapsed) && s.servoOn then setIncrement t.freqEstimate.toNat s1 else s1
    enforceMute s2

/-! ### Steps of air time (R403, R405, R406) -/

/-- Add a signed amount in 2^-32 ns to air time, as an acquisition or forced step: a new step generation, TIME_VALID, the
lock count and the over-limit run begin afresh, a pulse on PPS_OUT keeps its width (R407), and the job meets a discontinuity. [DEDUCED: log 140] -/
def stepAir (amount : Int) (s : State) : State :=
  let air : BitVec 96 := s.sys.air + BitVec.ofInt 96 amount
  let now := air.toNat / 2 ^ 32
  let t := { s.time with
    timeValid := true, stepGen := s.time.stepGen + 1, lockCount := 0, overRun := 0, refused := false,
    lockedAt := min s.time.lockedAt now, ppsOutEnd := s.time.ppsOutEnd.map fun e => e + now - s.sys.now }
  timeStepJob { s with time := t, sys := { s.sys with air := air } }

/-- The step of R405, at the tick after the write of GO: TIME_STEPPED, the step mute, and FREE or UNSAFE to ACQUIRING. [DEDUCED: log 140; DESIGN CHOICE: log 142] -/
def forcedStep (s : State) : State :=
  let off := toSigned 64 (s.sys.reg 0x050038)
  let before := s.sys.now
  let s1 := stepAir (off * 2 ^ 32) { s with time := { s.time with forcePending := false } }
  let s2 := s1.onSys fun y =>
    y.event Cls.TIME_STEPPED [(2, 1, s1.time.stepGen.toNat), (8, 8, before), (16, 8, y.now)]
  let s3 := { s2 with time := { s2.time with stepMuteEnd := some ((s2.sys.slotOf s2.sys.now + 3) * s2.sys.slotLen) } }
  let s4 := if s3.time.servo == .free || s3.time.servo == .lapsed then enterServo .acquiring s3 else s3
  enforceMute s4

/-- Ticks of the time unit (R389): each adds the increment, the first takes a pending forced step; the Sluice counts what
the increment adds (R519), and the quarter copies follow (R35). [DESIGN CHOICE: log 5, 142, 207] -/
def ticks (n : Nat) (s : State) : State :=
  if n = 0 then s
  else
    let inc := s.sys.increment
    let one (k : Nat) (t : State) : State :=
      { t with
        sys := { t.sys with air := t.sys.air + BitVec.ofNat 96 (k * inc) },
        sluice := if t.sluice.released then { t.sluice with accum := t.sluice.accum + k * inc } else t.sluice }
    (if s.time.forcePending then one (n - 1) (forcedStep (one 1 s)) else one n s).onSys Sys.driftCopies

/-- A write of GO. [DESIGN CHOICE: log 142] -/
def forceGo (v : Nat) (s : State) : State :=
  if v.testBit 0 then { s with time := { s.time with forcePending := true } } else s

def stepMuteEnd (s : State) : State :=
  match s.time.stepMuteEnd with
  | some e => if e ≤ s.sys.now then { s with time := { s.time with stepMuteEnd := none } } else s
  | none => s

/-- A write of SNAP. -/
def timeSnap (v : Nat) (s : State) : State :=
  if v.testBit 0 then
    { s with
      time := { s.time with
        nowNs := BitVec.ofNat 64 (s.sys.air.toNat / 2 ^ 32), nowFrac := BitVec.ofNat 32 s.sys.air.toNat } }
  else s

/-! ### Samples (R401 to R403, R408) -/

/-- The firmware's loop (R402): a new frequency estimate within R390, and a phase term of at most 100 ppm that removes θ.
Neither is specified further: both are free values within their bounds. [UNVERIFIED: log 138] -/
def steer (theta : Int) (s : State) : State :=
  let a := Config.freeNat s.sys.seed
  let b := Config.freeNat (s.sys.seed + 1)
  let f := 0x01FFBE76C9 + a % (0x0200418937 - 0x01FFBE76C9 + 1)
  let p := b % 858994
  let inc := if theta = 0 then f else if 0 < theta then f - p else f + p
  setIncrement inc { s with
    sys := { s.sys with seed := s.sys.seed + 2 },
    time := { s.time with freqEstimate := BitVec.ofNat 40 f } }

/-- θ of TIME_OFFSET and TIME_JUMP_REFUSED, in whole ns: which way a fraction goes is not stated. `x` in 2^-17 ns. [UNVERIFIED: log 139] -/
def wholeNs (x : Int) (s : State) : Int × State :=
  let d := s.sys.draw 1
  let lo := x / 131072
  (if x % 131072 = 0 then lo else lo + d.1.toNat, { s with sys := d.2 })

/-- An accepted sample at the servo; θ in 2^-17 ns. [DEDUCED: log 141; UNVERIFIED: log 139] -/
def servoSample (theta : Int) (s : State) : State :=
  let w := wholeNs theta s
  let s0 := { w.2 with
    time := { w.2.time with theta := BitVec.ofInt 32 (satSigned 32 w.1), lastAccepted := s.sys.now } }
  if !s.servoOn then s0
  else
    let limit := s.sys.regField 0x050010 0 20
    let beyond := decide (limit * 131072 < theta.natAbs)
    let judged := match s.time.servo with
      | .acquiring | .locked | .holdover => true
      | _ => false
    let near := decide (theta.natAbs ≤ 100 * 131072)
    let s1 : State := if beyond then
        { s0 with time := { s0.time with overRun := if judged then s0.time.overRun + 1 else s0.time.overRun } }
      else steer theta { s0 with time := { s0.time with overRun := 0, refused := false } }
    let s2 : State := { s1 with time := { s1.time with lockCount := if near then s1.time.lockCount + 1 else 0 } }
    if beyond && judged && decide (4 ≤ s2.time.overRun) && !s2.time.refused then
      let s3 := ({ s2 with time := { s2.time with refused := true, jumpRefused := true } }).onSys fun y =>
        y.event Cls.TIME_JUMP_REFUSED [(8, 8, ofSigned 64 w.1)]
      if s.time.servo == .locked then enterServo .holdover s3 else s3
    else if s.time.servo != .locked && s.time.servo != .free && decide (16 ≤ s2.time.lockCount) then enterServo .locked s2
    else s2

/-- The first accepted sample in FREE with SERVO_EN makes the acquisition step: air time moves by −θ (2^-17 ns), with no
limit. -/
def acquire (theta : Int) (s : State) : State :=
  let w := wholeNs theta s
  let s0 := { w.2 with
    time := { w.2.time with theta := BitVec.ofInt 32 (satSigned 32 w.1), lastAccepted := s.sys.now } }
  let s1 := stepAir (-(theta * 32768)) s0
  enterServo .acquiring { s1 with time := { s1.time with lastAccepted := s1.sys.now } }

/-- See the log. [DEDUCED: log 141] -/
def takeSample (theta : Int) (s : State) : State :=
  if s.servoOn && s.time.servo == .free then acquire theta s else servoSample theta s

/-- TIME_SAMPLE (R400, R401): one exchange or time of day from its sample block. [DEDUCED: log 141] -/
def timeSample (block : List Byte) (s : State) : State :=
  let second := s.sys.now / 1000000000
  let count := if s.time.sampleSecond = second then s.time.sampleCount + 1 else 1
  let s0 := { s with time := { s.time with sampleSecond := second, sampleCount := count } }
  let f (o n : Nat) : Int := fieldAt block o n
  let bad (cls : Nat) : State := s0.onSys fun y => y.count cls
  if fieldAt block 0 1 = 1 then
    if 128 < count then bad Cls.TIME_SAMPLE_BAD
    else if s.ppsSource then { s0 with time := { s0.time with todSecond := some (fieldAt block 8 8) } } else s0
  else
    let t2 : Int := f 0x10 8 * 65536 + f 0x38 2
    let t3 : Int := f 0x18 8 * 65536 + f 0x3A 2
    let x := t2 - f 0x08 8 * 65536 - toSigned 64 (fieldAt block 0x28 8)
    let z := f 0x20 8 * 65536 - t3 - toSigned 64 (fieldAt block 0x30 8)
    let gen := s.time.stepGen.toNat
    if fieldAt block 2 1 ≠ gen ∨ fieldAt block 3 1 ≠ gen then bad Cls.TIME_SAMPLE_STALE
    else if x + z < 0 ∨ fieldAt block 0x10 8 + 2000000000 < s.sys.now ∨ fieldAt block 0x18 8 + 2000000000 < s.sys.now
        ∨ 128 < count then bad Cls.TIME_SAMPLE_BAD
    else if s.ppsSource then s0
    else takeSample (x - z) s0

/-! ### Timers -/

/-- No accepted sample within 1 s in LOCKED (Table 13-3). -/
def sampleTimeout (s : State) : State :=
  if s.servoOn && s.time.servo == .locked && decide (s.time.lastAccepted + 1000000000 ≤ s.sys.now) then enterServo .holdover s
  else s

def holdoverLimit (s : State) : State :=
  if s.time.servo == .holdover && decide (s.time.holdoverStart + s.sys.regField 0x050014 0 17 * 1000000000 ≤ s.sys.now) then
    enterServo .lapsed s
  else s

/-- TIMING_UNSAFE clears at the first slot boundary of air time after the servo entered LOCKED (R404). -/
def timingUnsafeClear (s : State) : State :=
  if (s.time.servo == .locked || s.time.servo == .holdover) && decide (s.sys.slotOf s.time.lockedAt < s.sys.slotOf s.sys.now) then
    { s with time := { s.time with timingUnsafe := false } }
  else s

/-- One measurement of the Sluice's clock monitor (R521). [DEDUCED: log 143] -/
def clockMonitor (alarm : Bool) (s : State) : State :=
  if alarm then
    let s1 := { s with sluice := { s.sluice with muteClock := true } }
    let s2 := if s.sluice.muteClock then s1 else s1.onSys fun y => y.fault Cls.GUARD_CLOCK UnitCode.sluice 0 0 0
    let s3 := { s2 with time := { s2.time with timingUnsafe := true } }
    enforceMute (enterServo .lapsed s3)
  else { s with sluice := { s.sluice with muteClock := false } }

/-! ### 1PPS (R407, R408) -/

/-- An edge on PPS_IN. [UNVERIFIED: log 139] -/
def ppsEdge (rising : Bool) (s : State) : State :=
  if rising == (s.sys.regField 0x050000 3 1 == 0) then
    let stamp : BitVec 64 := BitVec.ofInt 64 ((s.sys.now : Int) - toSigned 32 (s.sys.reg 0x05004C))
    let late := match s.time.ppsLast with
      | some t => decide (t + 1500000000 < s.sys.now)
      | none => false
    let s1 := ({ s with
      time := { s.time with
        ppsStamp := stamp, ppsLast := some s.sys.now, ppsLost := s.time.ppsLost || (late && s.ppsSource) } }).onSys
        fun y => y.event Cls.PPS_IN_EDGE [(8, 8, stamp.toNat)]
    if !s.ppsSource then s1
    else if s.servoOn && s.time.servo == .free then
      match s.time.todSecond with
      | none => s1
      | some t => acquire (((stamp.toNat : Int) - t) * 131072) { s1 with time := { s1.time with todSecond := none } }
    else
      let r := stamp.toNat % 1000000000
      let d := s1.sys.draw 1
      let after := decide (r < 500000000) || (r == 500000000 && d.1 == 1)
      let s2 := if r = 500000000 then { s1 with sys := d.2 } else s1
      servoSample ((if after then (r : Int) else (r : Int) - 1000000000) * 131072)
        { s2 with time := { s2.time with todSecond := none } }
  else s

/-- No edge for 1.5 s with SOURCE 1. -/
def ppsLost (s : State) : State :=
  if s.ppsSource && decide (s.time.ppsLast.getD 0 + 1500000000 ≤ s.sys.now) then
    { s with time := { s.time with ppsLost := true } }
  else s

/-- PPS_OUT rises as air time reaches a whole second: within one increment past it. -/
def ppsPulse (s : State) : State :=
  if s.sys.regField 0x050000 2 1 = 1 ∧ s.time.timeValid = true ∧ s.pins.ppsOut = false
      ∧ s.sys.air.toNat % (1000000000 * 2 ^ 32) < s.sys.increment then
    { s with
      pins := { s.pins with ppsOut := true },
      time := { s.time with ppsOutEnd := some (s.sys.now + s.sys.regField 0x050048 0 29) } }
  else s

def ppsPulseEnd (s : State) : State :=
  match s.time.ppsOutEnd with
  | some e =>
    if e ≤ s.sys.now then { s with pins := { s.pins with ppsOut := false }, time := { s.time with ppsOutEnd := none } } else s
  | none => s

end Sys2Proof.Machine
end

