-- ==== Sys2Proof/Machine/Boundary.lean ====
section
/-! DEFINITION. The combining pass and the processing boundary: slot report, job-control and configuration commands at their
boundary, promotions and rollbacks, the choice of the next slot, and the timers of a slot (R105, R146, R150, R175, R372 to
R388, R410 to R412, R424, R571 to R576, R592). -/

namespace Sys2Proof.Machine

/-! ### The combining pass (R105, R378) -/

/-- Is there anything for a combining pass of the slot: a failed burst or a contribution that has come? [DESIGN CHOICE: log 58] -/
def State.toCombine (s : State) : Bool :=
  (s.rx.bursts.any fun b => b.state == .closed && !b.crcOk && !b.delivered)
    || s.rx.contributions.any fun c => decide (s.sys.slotOf c.finish ≤ s.job.slot)

/-- Has COMBINE_WAIT passed? -/
def State.combineDue (s : State) : Bool := decide (s.slotEnd + s.job.combineWait * 1000 ≤ s.sys.now)

/-- The combining checkpoint and the pass. [DESIGN CHOICE: log 58] -/
def combiningPass (s : State) : State :=
  if s.job.active && s.job.phase == .combine && !s.job.worked && s.combineDue && s.toCombine && s.sys.jobFault.isNone then
    let s1 := pinGrade s.checkpointComb
    combinePhase { s1 with job := { s1.job with phaseFrom := s1.sys.monitorNow } }
  else s

/-! ### Job-control commands in their queue (R372 to R374) -/

/-- One command takes effect (Table 12-3); an opcode that JOBQ does not list is INVALID (R438). -/
def applyJobCmd : JobCmd → State → State
  | .imageLoad q a image, s => applyImageLoad q a image s
  | .jobStart q schedule, s => applyJobStart q schedule s
  | .jobStop q, s => applyJobStop q s
  | .channelSet q a table, s => applyChannelSet q a table s
  | .paramSet q d fh cw hold a det, s => applyParamSet q d fh cw hold a det s
  | .step q slot leaves joins a, s => applyStep q slot leaves joins a s
  | .adapt op q ac g, s => applyHeadCommand op.toNat q ac.toNat g.toNat s
  | .unknown op q, s => jobDone s op.toNat q 2 0

/-- See the log. [DEDUCED: log 60] -/
def isStepCmd : JobCmd → Bool
  | .step .. => true
  | _ => false

/-- Take up to `n` commands in ring order. None is taken while a step runs; with `holdStep`, none from a STEP on. [DEDUCED: log 60, 65] -/
def drainJob (holdStep : Bool) : Nat → State → State
  | 0, s => s
  | n + 1, s =>
    match s.job.queue with
    | [] => s
    | c :: rest =>
      if (s.job.active && s.job.stepNow.isSome) || (holdStep && isStepCmd c) then s
      else drainJob holdStep n (applyJobCmd c { s with job := { s.job with queue := rest } })

/-! ### Configuration commands (R401, R410, R412, R429) -/

/-- SESSION_REMOVE: a transfer of the context completes first; frames, bursts, context and retained buffer go, and VALID
clears in both copies. [DEDUCED: log 62] -/
def applySessionRemove (seqno : BitVec 16) (sid : BitVec 32) (s : State) : State :=
  if decide (2 ^ 20 ≤ sid.toNat) || !s.sys.registered sid.toNat then cfgDone s 0x22 seqno 2
  else
    let n := sid.toNat
    let id := BitVec.ofNat 20 n
    let s0 := match s.sessionSlot n with
      | some k => spillDone k (swapInDone k s)
      | none => s
    let s1 := s0.endFrames 7 fun f => f.shortId == id
    let s2 := s1.discardWhere Cls.SESSION_REMOVED fun b => b.state == .opened && b.shortId == id
    let s3 := s2.freeRetained id
    let s4 := match s3.sessionSlot n with
      | some k => s3.onSys fun y => y.freeCtx k
      | none => s3
    cfgDone (s4.onSys fun y => y.writeRecord n 0 (natToBytes 4 (y.recordField n 0 4 % 2 ^ 31))) 0x22 seqno 0

/-- TIME_SAMPLE by descriptor: a sample that is discarded completes OK like one that is used. -/
def applyTimeSample (seqno : BitVec 16) (addr : BitVec 64) (block : List Byte) (s : State) : State :=
  if hostRange addr.toNat 64 then cfgDone (timeSample block s) 0x23 seqno 0 else cfgDone s 0x23 seqno 2

def applyCfgCmd : CfgCmd → State → State
  | .sessionAdd q sid home sel ring, s => applySessionAdd q sid home sel ring s
  | .sessionModify q sid home sel ring, s => applySessionModify q sid home sel ring s
  | .sessionRemove q sid, s => applySessionRemove q sid s
  | .timeSample q a block, s => applyTimeSample q a block s
  | .unknown op q, s => cfgDone s op.toNat q 2

/-- Does the command wait for a processing boundary while a job runs? [DEDUCED: log 61] -/
def cfgWaits : CfgCmd → Bool
  | .sessionAdd .. | .sessionModify .. | .sessionRemove .. => true
  | .timeSample .. | .unknown .. => false

/-- Take commands in strict ring order; off a boundary a session command of a running job holds those behind it. [DEDUCED: log 61, 65] -/
def drainCfg (boundary : Bool) : Nat → State → State
  | 0, s => s
  | n + 1, s =>
    match s.job.cfgQueue with
    | [] => s
    | c :: rest =>
      if cfgWaits c && s.job.active && !boundary then s
      else drainCfg boundary n (applyCfgCmd c { s with job := { s.job with cfgQueue := rest } })

/-- Commands that wait take effect at once when no job is active. [DEDUCED: log 60] -/
def drainIdle (s : State) : State :=
  if s.job.active then s
  else
    let s1 := drainJob false s.job.queue.length s
    drainCfg false s1.job.cfgQueue.length s1

/-- A job-control command arrives: it waits for the boundary of a job that processes slots. [DEDUCED: log 11] -/
def submitJob (c : JobCmd) (s : State) : State :=
  let s1 := { s with job := { s.job with queue := s.job.queue ++ [c] } }
  if s.job.active && !s.halted then s1 else drainJob false s1.job.queue.length s1

/-- See the log. [DEDUCED: log 11] -/
def submitCfg (c : CfgCmd) (s : State) : State :=
  let s1 := { s with job := { s.job with cfgQueue := s.job.cfgQueue ++ [c] } }
  drainCfg false s1.job.cfgQueue.length s1

/-! ### Heads at a boundary (R146 to R150, R573, R574, R576) -/

/-- Head entries of the slot: position, group and kind. -/
def State.headEntries (s : State) : List (Nat × Nat × Nat) :=
  (List.range s.job.schedule.length).filterMap fun i =>
    let e := s.job.schedule.getD i 0
    if entryHead e && entrySlot e == s.job.slot then
      some (i, adaptKey (bitsOf e.toNat 80 8) (bitsOf e.toNat 88 8), bitsOf e.toNat 96 8)
    else none

/-- One named head event, where it is possible. -/
def replayHead (s : State) (e : Nat × Nat × Nat) : State :=
  let g := s.headGroup e.2.1
  let free := !s.job.headDone.contains e.2.1
  let ready := match g.candidate with
    | some c => c.validated.isSome
    | none => false
  if free && e.2.2 == 1 && ready then promote e.2.1 s
  else if free && e.2.2 == 2 && g.previous.isSome then rollback e.2.1 0 s
  else s.onSys fun y => y.replayDiverged s.job.slot 3 e.1

/-- Under replay only named events are taken; what the module's own rules would do elsewhere is reported. [DEDUCED: log 63] -/
def replayHeads (s : State) : State :=
  let es := s.headEntries
  let pos := s.schedulePos (s.job.slot + 1)
  let s1 := s.adapt.groups.foldl (fun a e =>
    if e.2.due ≠ 0 ∧ !(es.any fun x => x.2.1 == e.1) ∧ !s.job.headDone.contains e.1 then
      a.onSys fun y => y.replayDiverged s.job.slot 4 pos
    else a) s
  let s2 := es.foldl replayHead s1
  { s2 with job := { s2.job with replayPos := pos } }

def boundaryHeads (s : State) : State :=
  let s1 := if s.job.replayActive then replayHeads s else headBoundary s.job.headDone s
  { s1 with job := { s1.job with headDone := [] } }

/-! ### The next slot (R381, R573) -/

/-- Go on with slot `n`; slots between are skipped and counted. -/
def goTo (n : Nat) (s : State) : State :=
  let from_ := s.job.slot + 1
  let s1 := skipSlots from_ n (s.onSys fun y => y.countN Cls.SLOT_SKIPPED (n - from_))
  beginSlot n { s1 with job := { s1.job with afterSkip := decide (from_ < n) } }

/-- The slot the module takes by its own rule. -/
def State.freeNext (s : State) : Nat :=
  if (s.job.slot + 2) * s.sys.slotLen < s.sys.now then max (s.rx.next - 1) (s.job.slot + 1) else s.job.slot + 1

def nextSlot (s : State) : State :=
  match s.job.restartAt with
  | some n =>
    let s1 := { s with job := { s.job with restartAt := none, afterSkip := false } }
    if s1.job.replayActive then
      let r := replayFrom (s1.schedulePos n) s1
      beginSlot (r.2.getD n) r.1
    else beginSlot n s1
  | none =>
    if s.job.replayActive then
      let r := replayFrom (s.schedulePos (s.job.slot + 1)) s
      goTo (r.2.getD r.1.freeNext) r.1
    else goTo s.freeNext s

/-! ### The boundary (R372) -/

/-- What a processed slot reports: SLOT_REPORT, ACK_SUPPRESSED, STEP_DONE (R380, R382, R384). -/
def reportSlot (causes : BitVec 5) (ran : Bool) (s : State) : State :=
  let finish := (if ran then s.sys.now else s.job.phaseFrom) - s.slotEnd
  let refs := sumOf s.job.refs
  let s1 := s.onSys fun y => y.event Cls.SLOT_REPORT (slotReport s.job (if s.net.linkRetry then causes ||| 4 else causes) finish)
  let s2 := if s.job.suppressed || decide (0 < s.job.withheld) then
      s1.onSys fun y => y.event Cls.ACK_SUPPRESSED [(2, 6, s.job.slot % 2 ^ 48), (8, 4, min (2 ^ 32 - 1) s.job.withheld)]
    else s1
  let s3 := match s.job.stepNow with
    | some c => s2.onSys fun y => y.completion Cls.STEP_DONE 0 0x06 c.seqno.toNat 0 0 c.detail
    | none => s2
  { s3 with
    job := { s3.job with
      prevRatio := if refs = 0 then 256 else ratioOf (sumOf s.job.measured) refs,
      prevCounts := s.job.counts, prevComb := s.job.combCounts, lastSlot := s.job.slot, withheld := 0, stepNow := none } }

/-- Settings that take effect at a boundary, and its housekeeping (R77, R79, R424, R483, R592, R594). -/
def settleBoundary (s : State) : State :=
  let y := s.sys.fold
  let y1 := { y with
    trace := { y.trace with
      ctrl := BitVec.ofNat 3 (y.reg 0x0C0000), clusters := BitVec.ofNat 64 (y.reg 0x0C0008) } }
  let s1 := { s with
    sys := y1,
    net := { s.net with role := s.net.roleNext.getD s.net.role, roleNext := none, linkRetry := false },
    rx := { s.rx with seen := s.rx.seen.filter fun e => decide (s.sys.now < e.start + 10000000000) },
    downlink := { s.downlink with answered := s.downlink.answered.filter fun e => decide (s.sys.now ≤ e.2) },
    job := { s.job with deadline := s.job.deadlineNext, slackFallback := s.job.fallback } }
  let s2 := s1.pruneDlHour
  if s.job.slot % 2 ^ 30 = 0 then clampAges s2 else s2

/-- PERST_N stops a job as JOB_STOP does, without a completion (Table 15-11). [DEDUCED: log 63] -/
def quietStop (s : State) : State :=
  if s.job.stopQuiet && s.job.state == .running then
    let s1 := { s with job := { s.job with stopQuiet := false } }
    if s.stepped then stopJob s1 else { s1 with job := { s1.job with state := .stopping, deferred := [] } }
  else s

/-- The boundary of the last slot of a job (R375). -/
def lastBoundary (s : State) : State :=
  let s1 := boundaryHeads s
  let past := match s.job.schedule.getLast? with
    | some e => decide (entrySlot e < s.job.slot)
    | none => false
  let s2 := if past then s1.onSys fun y => y.replayDiverged s.job.slot 5 s.job.schedule.length else s1
  drainIdle (stopJob (settleBoundary s2))

/-- The boundary of a job that goes on. -/
def midBoundary (s : State) : State :=
  let s1 := quietStop (boundaryHeads (drainJob s.stepped 64 s))
  let s2 := settleBoundary (drainCfg true s1.job.cfgQueue.length s1)
  if !s2.job.active then drainIdle s2
  else if s2.stepped then
    let s3 := { s2 with job := { s2.job with phase := .done, worked := false, restartAt := none } }
    drainJob false s3.job.queue.length s3
  else nextSlot s2

/-- The processing boundary of the slot in progress: after its combining pass, or after COMBINE_WAIT when there is nothing
to combine. [DEDUCED: log 59] -/
def processingBoundary (causes : BitVec 5) (s : State) : State :=
  let ran := s.job.worked
  if s.job.active && s.job.phase == .combine && s.sys.jobFault.isNone && (ran || (s.combineDue && !s.toCombine)) then
    let s1 := if ran then
        { s with
          job := { s.job with
            measured := natPut s.job.measured 5 (s.sys.monitorNow - s.job.phaseFrom), refs := natPut s.job.refs 5 s.refCombRan } }
      else s
    let s2 := sidePoisonCheck (weightPoisonCheck s1)
    if s2.sys.jobFault.isSome then s2
    else
      let s3 := freezeHeldSets (reportSlot causes ran (applyClosings s2))
      if s3.job.state == .stopping then lastBoundary s3 else midBoundary s3
  else s

/-! ### Timers of a slot -/

/-- Air time has reached D: no decision of the slot is taken any more (R110, R380). [DESIGN CHOICE: log 58] -/
def deadlineReached (s : State) : State :=
  if s.job.active && s.job.phase != .done && decide (s.slotEnd + s.job.deadline * 1000 ≤ s.sys.now) then
    { s with job := { s.job with deadlinePassed := true } }
  else s

/-- While no job runs, Heron folds the counts kept in units at least every millisecond (R592). -/
def foldIdle (s : State) : State := if s.job.active then s else s.onSys Sys.fold

/-- Retained buffers whose expiry slot has come are freed at a boundary (R175). [DEDUCED: log 64; DESIGN CHOICE: log 256] -/
def softHoldExpiry (s : State) : State :=
  let at_ := if s.job.active && s.job.phase != .done then s.job.slot else s.job.slot + 1
  if s.job.active && s.job.phase != .ingest && s.job.phase != .done && !(s.job.phase == .chan && !s.job.worked) then s
  else (s.soft.retained.filter fun r => decide (r.expiry ≤ at_)).foldl (fun a r => a.freeRetained r.shortId) s

/-- A job fault, after which commands that waited for a boundary take effect (R376, R373). [DEDUCED: log 59] -/
def jobFaultStep (s : State) : State := drainIdle (jobFaulted s)

end Sys2Proof.Machine
end

