-- ==== Sys2Proof/Machine/Host.lean ====
section
/-! DEFINITION. The host interface (ch. 15): doorbells and ring set-up, the reading of submission rings, downlink command
frames, dumps, host Ethernet transmit, the event ring and its interrupts, BAR 4 and PERST_N. -/

namespace Sys2Proof.Machine

/-! ### Doorbells and ring set-up (R435, R437) -/

/-- A write of DB_RING. -/
def doorbell (r index : Nat) (s : State) : State :=
  if 18 ≤ r then s
  else
    let h := s.sys.ring r
    if !h.enabled then s.onSys fun y => y.count Cls.DOORBELL_DISABLED
    else if h.size ≤ index then s.onSys fun y => y.count Cls.DOORBELL_RANGE
    else if r < 8 then s.onSys fun y => y.setRing r { h with hostPos := index, stopped := false, waitSince := none }
    else if h.used < (index + h.size - h.hostPos) % h.size then s.onSys fun y => y.count Cls.DOORBELL_RANGE
    else s.onSys fun y => y.setRing r { h with hostPos := index }

/-- Address of HOSTQ_BASE of a ring. -/
def hostqOff (r : Nat) : Nat := 0x070000 + 0x20 * r

/-- Does the configuration that stands in a ring's registers keep the rules of Table 15-3 and the host range of R431? [DEDUCED: log 87] -/
def ringUsable (y : Sys) (r : Nat) : Bool :=
  let o := hostqOff r
  let log2 := y.regField (o + 8) 0 5
  let rx := y.regField (o + 0x18) 0 4
  let buf := y.reg (o + 0x10)
  decide (y.reg o % 4096 = 0) && decide (6 ≤ log2) && decide (log2 ≤ 16) && hostRange (y.reg o) (32 * 2 ^ log2)
    && (r < 8 || r == 16 || (decide (buf % 4096 = 0)
      && (if r = 17 then decide (11 ≤ rx) && decide (rx ≤ 14) && hostRange buf (2 ^ rx * 2 ^ log2) else hostRange buf (512 * 2 ^ log2))))

/-- A write of HOSTQ_CFG has set its ENABLE bit: positions and phase begin afresh and the registers are latched, or the ring is
disabled. -/
def ringEnable (r : Nat) (s : State) : State :=
  let y := s.sys
  let o := hostqOff r
  if y.regField (o + 8) 5 1 = 0 then s.onSys fun z => z.setRing r { z.ring r with enabled := false }
  else if ringUsable y r then
    s.onSys fun z => z.setRing r
      { enabled := true, base := y.reg o, log2 := y.regField (o + 8) 0 5, vector := y.regField (o + 8) 8 6,
        coalesce := if r < 8 then 0 else y.regField (o + 8) 16 16, bufBase := y.reg (o + 0x10), rxLog2 := y.regField (o + 0x18) 0 4 }
  else (s.onSys fun z => z.setRing r { z.ring r with enabled := false }).onSys fun z => z.count Cls.RING_CONFIG_INVALID

/-! ### Descriptors (R438, Tables 15-5 to 15-7, 15-12) -/

/-- The bytes of a 32-byte slot, and a field of it. -/
def slotField (slot : BitVec 256) (o n : Nat) : Nat := bitsOf slot.toNat (8 * o) (8 * n)

/-- `count` little-endian entries of `size` bytes. -/
def entriesOf (size count : Nat) (bs : List Byte) : List Nat := (List.range count).map fun i => fieldAt bs (size * i) size

/-- The JOBQ command that a descriptor and the buffer it names spell. -/
def jobDescriptor (slot : BitVec 256) (buf : List Byte) (s : State) : JobCmd :=
  let f := slotField slot
  let q : BitVec 16 := BitVec.ofNat 16 (f 2 2)
  let a : BitVec 64 := BitVec.ofNat 64 (f 8 8)
  match f 0 1 with
  | 0x01 =>
    let n := min (f 16 8) (2 ^ 28 + 1)
    .imageLoad q a ((buf ++ List.replicate (n - buf.length) 0).take n)
  | 0x02 => .jobStart q ((entriesOf 16 (min (s.sys.reg 0x080018) (buf.length / 16)) buf).map (BitVec.ofNat 128))
  | 0x03 => .jobStop q
  | 0x04 => .channelSet q a ((entriesOf 8 (f 16 2) buf).map (BitVec.ofNat 64))
  | 0x05 => .paramSet q (BitVec.ofNat 16 (f 4 2)) (BitVec.ofNat 16 (f 6 2)) (BitVec.ofNat 16 (f 8 2)) (BitVec.ofNat 16 (f 10 2))
      (BitVec.ofNat 64 (f 16 8)) ((entriesOf 8 12 buf).map (BitVec.ofNat 64))
  | 0x06 =>
    let ids := (entriesOf 4 (f 10 2 + f 12 2) buf).map (BitVec.ofNat 20)
    .step q (BitVec.ofNat 48 (f 4 6)) (ids.take (f 10 2)) (ids.drop (f 10 2)) (BitVec.ofNat 64 (f 16 8))
  | op =>
    if 0x10 ≤ op ∧ op ≤ 0x14 then .adapt (BitVec.ofNat 8 op) q (BitVec.ofNat 8 (f 4 1)) (BitVec.ofNat 8 (f 5 1))
    else .unknown (BitVec.ofNat 8 op) q

/-- The CFGQ command that a descriptor spells. -/
def cfgDescriptor (slot : BitVec 256) (buf : List Byte) : CfgCmd :=
  let f := slotField slot
  let q : BitVec 16 := BitVec.ofNat 16 (f 2 2)
  let sid : BitVec 32 := BitVec.ofNat 32 (f 4 4)
  match f 0 1 with
  | 0x20 => .sessionAdd q sid (BitVec.ofNat 8 (f 8 1)) (BitVec.ofNat 8 (f 9 1)) (BitVec.ofNat 8 (f 10 1))
  | 0x21 => .sessionModify q sid (BitVec.ofNat 8 (f 8 1)) (BitVec.ofNat 8 (f 9 1)) (BitVec.ofNat 8 (f 10 1))
  | 0x22 => .sessionRemove q sid
  | 0x23 => .timeSample q (BitVec.ofNat 64 (f 8 8)) buf
  | op => .unknown (BitVec.ofNat 8 op) q

/-! ### Downlink command frames (R443 to R446) -/

/-- Frames that DL_COMMAND acceptance counts as held. [DEDUCED: log 82] -/
def State.dlHeld (s : State) : Nat := s.downlink.held.length

/-- A schedule entry extended to an air time (R395). -/
def extendEntry (now entry : Nat) : Int := (now : Int) + toSigned 40 (entry + 2 ^ 40 - now % 2 ^ 40)

/-- Do the fields of a DL_COMMAND lie in range: session, and for an absolute frame channel and profile, for an anchored one
OFFSET and HOLD (R444)? -/
def dlFieldsOk (slot : BitVec 256) (s : State) : Bool :=
  let f := slotField slot
  let sid := f 4 4 % 2 ^ 20
  let len := f 10 1 + 1
  s.sys.registered sid && hostRange (f 24 8) (len + 4) &&
  (if (f 1 1).testBit 2 then
    decide (f 18 2 * 1000 + 1000 ≤ 2 * s.sys.slotLen) && decide (1 ≤ f 20 2) && decide (f 20 2 ≤ 3600)
  else match s.channelCfg (BitVec.ofNat 16 (f 8 2)) with
    | some c => c.airClass == (profileOf (f 4 4 / 2 ^ 20 % 16)).airClass
    | none => false)

/-- DL_COMMAND from ring `ring`, which is not taken while 16,384 frames are held, with the payload and CRC-32 read from the host; `poison` marks a poisoned read (Table 17-7). -/
def dlCommand (ring : Nat) (slot : BitVec 256) (body : List Byte) (poison : Bool) (s : State) : State :=
  let f := slotField slot
  let q : BitVec 16 := BitVec.ofNat 16 (f 2 2)
  let sid := f 4 4 % 2 ^ 20
  let prof := f 4 4 / 2 ^ 20 % 16
  let len := f 10 1 + 1
  let now := s.sys.now
  let payload := (List.range len).map fun i => body.getD i 0
  let start := extendEntry now (f 12 5)
  let done (status reason : Nat) (t : State) : State := dlDone ring q status reason now t
  if 16384 ≤ s.dlHeld then s
  else if s.job.state != .running then done 3 0 s
  else if !dlFieldsOk slot s then done 2 0 s
  else if poison || frameCrc32 sid payload ≠ fieldAt body len 4 then done 5 1 (s.onSys fun y => y.count Cls.DL_CRC_FAIL)
  else
    let h : HeldFrame :=
      { ring := ring, seqno := q, anchored := (f 1 1).testBit 2, shortId := BitVec.ofNat 20 sid, profile := prof,
        seq := BitVec.ofNat 8 (f 4 4 / 2 ^ 24), lenM1 := f 10 1, body := payload ++ (List.range 4).map fun i => body.getD (len + i) 0,
        channel := BitVec.ofNat 16 (f 8 2), start := start.toNat, offset := f 18 2, expires := now + f 20 2 * 1000000000 }
    let hold : State := { s with downlink := { s.downlink with held := s.downlink.held ++ [h] } }
    if h.anchored then hold
    else if start < ((s.sys.slotOf now + 2) * s.sys.slotLen : Nat) then done 5 2 s
    else if s.downlink.held.any fun g => (!g.anchored || g.released) && g.channel == h.channel && decide (g.start < h.finish ∧ h.start < g.finish) then
      done 5 3 s
    else hold

/-! ### Diagnostic dumps (R592, R593, R595) -/

def diagDone (s : State) (opcode : Nat) (seqno : BitVec 16) (status : Nat) : State :=
  s.onSys fun y => y.completion Cls.COMPLETION 6 opcode seqno.toNat status 0 0

/-- Write at most `len` bytes to the host and complete; an address outside the host range is INVALID. [DEDUCED: log 86] -/
def dumpTo (opcode : Nat) (seqno : BitVec 16) (addr : BitVec 64) (len : BitVec 32) (bs : List Byte) (s : State) : State :=
  if hostRange addr.toNat len.toNat then
    diagDone (s.onSys fun y => y.pokeN (hostBase + addr.toNat) (bs.take len.toNat)) opcode seqno 0
  else diagDone s opcode seqno 2

/-- The 512 event counters and the 256 fault counters, in code order. -/
def counterBytes (y : Sys) : List Byte :=
  ((List.range 512).flatMap fun c => natToBytes 8 (natAt y.counters c))
    ++ (List.range 256).flatMap fun c => natToBytes 8 (natAt y.counters (0x1000 + c))

def countersDump (seqno : BitVec 16) (addr : BitVec 64) (len : BitVec 32) (s : State) : State :=
  let s1 := s.onSys Sys.fold
  dumpTo 0x40 seqno addr len (counterBytes s1.sys) s1

def faultLogDump (seqno : BitVec 16) (addr : BitVec 64) (len : BitVec 32) (s : State) : State :=
  dumpTo 0x41 seqno addr len ((s.sys.logKept ++ s.sys.logRing).flatMap fun r => natToBytes 32 r.toNat) s

/-- Trace records from oldest to newest; whole records up to LENGTH. -/
def traceBytes (y : Sys) (len : Nat) : List Byte :=
  let t := y.trace
  (List.range (min t.count ((len + 31) / 32))).flatMap fun i =>
    y.peekN (traceBase + 32 * ((t.head + tracePlaces - t.count + i) % tracePlaces)) 32

def traceDump (seqno : BitVec 16) (addr : BitVec 64) (len : BitVec 32) (s : State) : State :=
  dumpTo 0x42 seqno addr len (traceBytes s.sys len.toNat) s

/-! ### Host Ethernet transmit (R396 to R398, R455) -/

/-- A timestamp of the moment, 80 bits with the port's adjustment in 1/16 ns: `lo` 0 receive, 16 transmit. [DESIGN CHOICE: log 83] -/
def Sys.portStamp (y : Sys) (port lo : Nat) : Nat :=
  let adj := toSigned 16 (y.regField (0x040040 + 4 * port) lo 16)
  ofSigned 80 (((y.now * 65536 + y.nowFrac16 : Nat) : Int) + adj * 4096)

/-- PTP Timestamp of a stamp: 48 bits of seconds and 32 bits of nanoseconds, big-endian. [DESIGN CHOICE: log 83] -/
def ptpStamp (stamp : Nat) : List Byte :=
  let ns := stamp / 65536
  bytesBE 6 (ns / 1000000000) ++ bytesBE 4 (ns % 1000000000)

/-- Replace bytes of a list from offset `o`. [DEDUCED: log 84] -/
def patchAt (o : Nat) (new bs : List Byte) : List Byte := bs.take o ++ new ++ bs.drop (o + new.length)

/-- ETH_TX: slot index of the descriptor on ETXQ, the descriptor and the frame it names. The timestamp written back for a frame not
sent is free. [DEDUCED: log 84; DESIGN CHOICE: log 83] -/
def ethTx (index : Nat) (slot : BitVec 256) (frame : List Byte) (s : State) : State :=
  let f := slotField slot
  let port := f 4 1
  let len := f 6 2
  let oneStep := (f 1 1).testBit 2
  let bad := decide (5 < port) || decide (len < 60) || decide (9216 < len) || !hostRange (f 16 8) len
    || (oneStep && decide (len < f 8 2 + 10))
  let status := if bad then 2 else if (s.net.port port).up then 0 else 1
  let stamp := if status = 0 then s.sys.portStamp port 16 else 0
  let bytes := (frame ++ List.replicate (len - frame.length) 0).take len
  let out := if oneStep then patchAt (f 8 2) (ptpStamp stamp) bytes else bytes
  let s1 := if status = 0 then s.onSys fun y => { y with sent := y.sent ++ [.frame port out] }
    else if status = 1 then s.onSys fun y => y.count Cls.ETH_TX_DOWN
    else s
  if (f 1 1).testBit 1 then
    let h := s1.sys.ring 7
    let a := h.slotAddr index
    let r := if status = 0 then (BitVec.ofNat 80 stamp, s1.sys) else s1.sys.draw 80
    let back := natToBytes 10 r.1.toNat ++ natToBytes 1 status ++ natToBytes 1 s.time.stepGen.toNat
    { s1 with sys := r.2 }.onSys fun y => (y.pokeN (a + 16) back).poke (a + 1) (BitVec.ofNat 8 (Nat.xor (f 1 1) 1))
  else s1

/-! ### Reading a submission ring (R438 to R441, R444, R448) -/

/-- Does R448 let the module take a new submission? -/
def Sys.takesSubmissions (y : Sys) : Bool := !(y.held.any EvEntry.completion) && decide (y.heldCount ≤ 960)

/-- A submission ring with descriptors to read. -/
def HostRing.pending (h : HostRing) : Bool := h.enabled && !h.stopped && h.modPos != h.hostPos

/-- Does a DLQ ring of lower number hold descriptors that go first (R444)? [DEDUCED: log 88] -/
def Sys.dlqBefore (y : Sys) (r : Nat) : Bool :=
  decide (2 ≤ r ∧ r ≤ 4) && (List.range r).any fun k => decide (1 ≤ k) && (y.ring k).pending && (y.ring k).waitSince.isNone

/-- A descriptor of a ring does its work. [DEDUCED: log 11] -/
def takeDescriptor (r index : Nat) (slot : BitVec 256) (buf : List Byte) (poison : Bool) (s : State) : State :=
  let f := slotField slot
  let op := f 0 1
  let q : BitVec 16 := BitVec.ofNat 16 (f 2 2)
  let a : BitVec 64 := BitVec.ofNat 64 (f 8 8)
  let n : BitVec 32 := BitVec.ofNat 32 (f 16 4)
  let invalid : State := s.onSys fun y => y.completion Cls.COMPLETION r op q.toNat 2 0 0
  match r with
  | 0 => submitJob (jobDescriptor slot buf s) s
  | 5 => submitCfg (cfgDescriptor slot buf) s
  | 6 =>
    match op with
    | 0x40 => countersDump q a n s
    | 0x41 => faultLogDump q a n s
    | 0x42 => traceDump q a n s
    | _ => invalid
  | 7 => if op = 0x50 then ethTx index slot buf s else invalid
  | _ => if op = 0x30 then dlCommand r slot buf poison s else invalid

/-- One read of the slot at a ring's head: the slot as it stands in host memory, the buffer it names, whether the
descriptor cache reported an uncorrectable error, whether the host returned poison. [DEDUCED: log 11, 65, 82, 85] -/
def submissionFetch (r : Nat) (slot : BitVec 256) (buf : List Byte) (ecc poison : Bool) (s : State) : State :=
  let h := s.sys.ring r
  if !h.pending || !s.sys.takesSubmissions || s.sys.dlqBefore r
      || (decide (1 ≤ r ∧ r ≤ 4) && decide (16384 ≤ s.dlHeld)) then s
  else if ecc then s.onSys fun y => y.fault Cls.DESC_ECC UnitCode.pcie 0 0 r
  else if (slotField slot 1 1).testBit 0 != h.phase then
    s.onSys fun y => y.setRing r { h with waitSince := h.waitSince <|> some y.now }
  else
    takeDescriptor r h.modPos slot buf poison (s.onSys fun y => y.setRing r { h.advance 1 with waitSince := none })

/-- 100 µs of wrong PHASE halt a ring. -/
def hostRingPhase (r : Nat) (s : State) : State :=
  let h := s.sys.ring r
  match h.waitSince with
  | none => s
  | some t =>
    if h.enabled && !h.stopped && decide (t + 100000 ≤ s.sys.now) then
      (s.onSys fun y => y.setRing r { h with stopped := true, waitSince := none }).onSys fun y =>
        y.event Cls.HOST_RING_PHASE [(2, 1, r), (4, 2, h.modPos)]
    else s

/-! ### The event ring and interrupts (R448, R452) -/

/-- Held entries are written in order, as far as EVQ has room. [DEDUCED: log 215] -/
def evqHeldWrite (s : State) : State := s.onSys fun y => y.flush (y.held.length + 1)

/-- COALESCE after the first unsignalled entry of a completion ring, its vector is signalled. -/
def coalesceExpiry (r : Nat) (s : State) : State :=
  let h := s.sys.ring r
  match h.unsigSince with
  | some t =>
    if h.enabled && decide (t + h.coalesce * 1000 ≤ s.sys.now) then
      s.onSys fun y => (y.setRing r { h with unsigSince := none }).signalVector h.vector
    else s
  | none => s

/-- A write of one 32-bit word of the MSI-X table: unmasking a vector sends its pending message. -/
def msixWrite (i v : Nat) (s : State) : State :=
  let t := mapSet (fun _ => (0 : BitVec 32)) i (BitVec.ofNat 32 v) s.sys.msixTable
  let y : Sys := { s.sys with msixTable := t }
  let vec := i / 4
  if y.msixPending.getLsbD vec && !y.msixMasked vec then
    { s with sys := ({ y with msixPending := y.msixPending &&& ~~~(1#64 <<< vec) }).signalVector vec }
  else { s with sys := y }

/-! ### BAR 4 (R457) -/

/-- LPDDR6 address of a BAR 4 offset. -/
def Sys.bar4Addr (y : Sys) (x : Nat) : Nat := y.regField 0x070400 28 7 * 2 ^ 28 + x % 2 ^ 28

def setReadData (v : Nat) (p : Bool) (s : State) : State :=
  s.onSys fun y => { y with regs := { y.regs with readData := v, readPoisoned := p } }

/-- One access of `n` bytes: closed, a read returns all ones and a write is discarded, each counted. -/
def bar4Access (x n : Nat) (a : BarAccess) (errs : ReadErrors) (s : State) : State :=
  if s.job.lock then
    let s1 := s.onSys fun y => y.count Cls.BAR4_CLOSED
    match a with
    | .read => setReadData (2 ^ (8 * n) - 1) false s1
    | .write _ => s1
  else
    let at_ := s.sys.bar4Addr x
    match a with
    | .read =>
      match s.sys.localFault at_ with
      | some c => setReadData 0 true (s.onSys fun y => y.fault c UnitCode.pcie 0 0 at_)
      | none =>
        let r := readProtected at_ n errs UnitCode.pcie 0 0 s
        setReadData (bytesToNat r.1) (r.2.1.any id) r.2.2
    | .write v =>
      s.onSys fun y =>
        let z := y.writeLocal at_ (natToBytes n v.toNat) false UnitCode.pcie 0 0
        if (y.localFault at_).isSome then z else z.markState at_ n 3

/-! ### PERST_N (Table 15-11, R581) -/

/-- Every ring is disabled, with its ENABLE bit clear. [DEDUCED: log 90] -/
def disableRings (y : Sys) : Sys :=
  (List.range 18).foldl (fun (z : Sys) r =>
    let o := hostqOff r + 8
    (z.setReg o (putBits (z.regStored o) 5 1 0)).setRing r { z.ring r with enabled := false }) y

/-- PCIe reset: rings are disabled, buffered low halves drop, held frames end STOPPED, a running job stops at its next
boundary without a completion. [DEDUCED: log 90] -/
def perst (asserted : Bool) (s : State) : State :=
  if asserted then
    let s1 := s.endFrames 8 fun _ => true
    let regs := disableRings s1.sys
    { s1 with
      pins := { s1.pins with perstN := false },
      heron := { s1.heron with pcieUp := false },
      job := { s1.job with
        stopQuiet := s1.job.stopQuiet || s1.job.state == .running || s1.job.state == .starting, queue := [], cfgQueue := [] },
      sys := { regs with msixTable := [], msixPending := 0, regs := { regs.regs with lowBuf := [], readLatch := none } } }
  else { s with pins := { s.pins with perstN := true } }

end Sys2Proof.Machine
end

