-- ==== Sys2Proof/Machine/Ether.lean ====
section
/-! DEFINITION. The Ethernet ports: lanes, training and fall-back, LLDP, classification of received frames, host receive, and
fronthaul receive (R396, R456, R458 to R468, R470, R471, R559). -/

namespace Sys2Proof.Machine

/-! ### Lanes (R458, R459, Tables 16-1 and 19-12) -/

/-- Lanes of a port under ETH_PORT_MODE. -/
def portLanes (mode p : Nat) : List Nat :=
  if p = 4 then [4, 5]
  else if p = 5 then [6, 7]
  else if mode = 3 then (if p = 0 then [0, 1, 2, 3] else [])
  else if mode = 2 then (if p < 2 then [2 * p, 2 * p + 1] else [])
  else if p < 4 then [p] else []

def Sys.portMode (y : Sys) : Nat := y.regField 0x040000 0 2
def Sys.capped (y : Sys) : Bool := y.regField 0x090000 0 2 != 0

/-- Are the ring SerDes powered (Table 19-12)? [DESIGN CHOICE: log 149] -/
def State.ringSerdes (s : State) : Bool := s.net.ringPowered && s.sys.fabricOn

/-- May a lane train at all: not fenced by fuse, its quarter not lost, and for a ring lane the SerDes powered and not joined
through the Causeway? -/
def State.laneUsable (s : State) (l : Nat) : Bool :=
  !s.heron.shadow.serdesBad.getLsbD l && !s.sys.quarterGone (l / 2) && (l < 4 || (s.ringSerdes && !s.pins.bypassState))

/-- Lane sets that a port may take, widest first (R459): the lower-numbered pair, then the lower-numbered lane. -/
def Sys.widths (y : Sys) (p : Nat) : List (List Nat) :=
  let full := portLanes y.portMode p
  let pairs := if full.length = 4 && y.regField 0x040004 0 1 = 1 then [full.take 2, full.drop 2] else []
  let lanes := if p < 4 && decide (2 ≤ full.length) && y.regField 0x040004 1 1 = 1 then full.map fun l => [l] else []
  if full.isEmpty then [] else [full] ++ pairs ++ lanes

/-- The widest allowed set whose lanes all train. [DEDUCED: log 150] -/
def State.trainable (s : State) (sets : List (List Nat)) (ok : BitVec 8) : Option (List Nat) :=
  sets.find? fun ls => ls.all fun l => ok.getLsbD l && s.laneUsable l

def laneMask (ls : List Nat) : BitVec 8 := ls.foldl (fun m l => m ||| (1#8 <<< l)) 0

/-! ### LLDP frames (R470) -/

/-- Ring position of a node, 0xFF when the order does not hold it. [DESIGN CHOICE: log 153] -/
def Sys.ringIndex (y : Sys) (node : Nat) : Nat := ((List.range 32).find? fun i => y.ringPos i == node).getD 0xFF

/-- The LLDPDU of a port. [DESIGN CHOICE: log 153; UNVERIFIED: log 18] -/
def lldpFrame (s : State) (p : Nat) : List Byte :=
  let y := s.sys
  padFrame (bytesBE 6 0x0180C200000E ++ bytesBE 6 (macOfPort y p) ++ bytesBE 2 0x88CC ++ Config.lldpIds p (macOfPort y p)
    ++ bytesBE 2 (3 * 512 + 2) ++ bytesBE 2 4
    ++ bytesBE 2 (127 * 512 + 10) ++ bytesBE 3 Config.weliacoOui.toNat
    ++ [1, BitVec.ofNat 8 y.fabricId, BitVec.ofNat 8 y.node, BitVec.ofNat 8 p, BitVec.ofNat 8 (y.ringIndex y.node),
        BitVec.ofNat 8 s.net.role, 0]
    ++ bytesBE 2 0)

/-- LLDP leaves a port that is up. -/
def lldpSend (p : Nat) (s : State) : State :=
  if (s.net.port p).up then s.onSys fun y => { y with sent := y.sent ++ [.frame p (lldpFrame s p)] } else s

/-! ### RING_STATE on a change (R475) -/

/-- Broken bits of this module's ring links. -/
def State.ownBroken (s : State) : Nat := (!s.ringPortGood 4).toNat + 2 * (!s.ringPortGood 5).toNat

/-- An unsequenced packet out of one ring port, to the neighbour beyond it. -/
def ringSend (p : Nat) (pk : FabricPacket) (s : State) : State :=
  if (s.net.port p).up && s.sys.fabricOn && !s.net.dupNode && !s.pins.bypassState then
    let d := (s.net.side p).neighbour.getD 0
    s.onSys fun y => { y with
      sent := y.sent ++ [.fabric p 0 (packetBytes y.node d 0 (s.net.flow d).ackValue.toNat false pk) false] }
  else s

/-- RING_STATE on both ring ports. [UNVERIFIED: log 19] -/
def ringStateSend (s : State) : State :=
  let pk : FabricPacket := { kind := 0x21, body := Config.ringStateBody s.ownBroken s.ownBypassed }
  ringSend 5 pk (ringSend 4 pk s)

/-! ### Link up, link loss, fall-back (R459 to R461) -/

/-- A port comes up over some lanes, with LINK_DEGRADED on a narrower width. -/
def portUp (p : Nat) (ls : List Nat) (s : State) : State :=
  let narrow := decide (ls.length < (portLanes s.sys.portMode p).length)
  let s1 := s.onNet fun n =>
    { n.setPort p { up := true, lanes := ls, degraded := narrow } with laneOk := n.laneOk ||| laneMask ls }
  let s2 := if narrow then s1.onSys fun y => y.event Cls.LINK_DEGRADED [(2, 1, p), (3, 1, (laneMask ls).toNat)] else s1
  lldpSend p s2

/-- A port is down: the ring is open on that side. [DEDUCED: log 151] -/
def portDown (p : Nat) (event : Bool) (s : State) : State :=
  let s1 := s.onNet fun n =>
    { (n.setPort p {}) with laneOk := n.laneOk &&& ~~~(laneMask (portLanes s.sys.portMode p ++ (n.port p).lanes)) }
  let s2 := if 4 ≤ p then ringStateSend (s1.onNet fun n => n.setSide p { broken := true }) else s1
  if event then s2.onSys fun y => y.event Cls.LINK_DOWN [(2, 1, p)] else s2

/-- Training of a port's lanes ends; `ok` are the lanes that trained. A port that retrains keeps its width until the 500 ms are
over. [DEDUCED: log 150] -/
def train (p : Nat) (ok : BitVec 8) (s : State) : State :=
  let x := s.net.port p
  if x.up || decide (5 < p) || (portLanes s.sys.portMode p).isEmpty then s
  else if x.retrainUntil.isSome then
    match s.trainable [x.lanes] ok with
    | some ls => portUp p ls s
    | none => s
  else
    match s.trainable (s.sys.widths p) ok with
    | some ls => portUp p ls s
    | none => if 4 ≤ p && (!s.ringSerdes || s.pins.bypassState) then s else portDown p true s

/-- LINK_TRAINED. Under a cap below 260 W a lane whose port is down is gated and trains only in its attempts (R559). [DEDUCED: log 150] -/
def linkTrained (p : Nat) (ok : BitVec 8) (s : State) : State :=
  if s.heron.stage < 8 || (s.sys.capped && (s.net.port p).retrainUntil.isNone) then s else train p ok s

/-- LANE_TRAINING_ATTEMPT: once every 10 s for a down port under a cap. -/
def laneTrainingAttempt (p : Nat) (ok : BitVec 8) (s : State) : State :=
  if s.heron.stage < 8 || !s.sys.capped || (s.net.port p).up || (s.net.port p).retrainUntil.isSome
      || (s.power.lastAttempt.any fun e => e.1 == p && decide (s.sys.now < e.2 + 10000000000)) then s
  else train p ok { s with power := { s.power with lastAttempt := mapSet (fun _ => 0) p s.sys.now s.power.lastAttempt } }

/-- LINK_LOSS of a port that is up: the frames queued to it are dropped and it retrains at its present width. [DEDUCED: log 151] -/
def linkLoss (p queued : Nat) (s : State) : State :=
  let x := s.net.port p
  if x.up then
    let s1 := (s.onSys fun y => y.countN Cls.ETH_TX_DOWN queued).onNet fun n =>
      { n.setPort p { x with up := false, retrainUntil := some (s.sys.now + 500000000) } with
        laneOk := n.laneOk &&& ~~~(laneMask x.lanes) }
    if 4 ≤ p then ringStateSend (s1.onNet fun n => n.setSide p { broken := true }) else s1
  else s

/-- RETRAIN_TIMEOUT: the port falls back to a narrower width whose lanes train, or is down. [DEDUCED: log 150] -/
def retrainTimeout (p : Nat) (ok : BitVec 8) (s : State) : State :=
  let x := s.net.port p
  match x.retrainUntil with
  | some t =>
    if s.sys.now < t then s
    else
      match s.trainable ((s.sys.widths p).filter fun ls => decide (ls.length < x.lanes.length)) ok with
      | some ls => portUp p ls s
      | none => portDown p true s
  | none => s

/-- A quarter's lanes go with it: its ports fall back to widths of the lanes that are left (R460). [DEDUCED: log 152] -/
def quarterLanesLost (q : Nat) (s : State) : State :=
  (List.range 6).foldl (fun a p =>
    let x := a.net.port p
    if x.up && x.lanes.any (fun l => l / 2 == q) then
      match a.trainable (a.sys.widths p) a.net.laneOk with
      | some ls => portUp p ls (portDown p false a)
      | none => portDown p true a
    else a) s

/-! ### Host receive (R396, R397, R451, R456) -/

/-- A frame for ERXQ. [DEDUCED: log 157] -/
def deliverErxq (port : Nat) (frame : List Byte) (s : State) : State :=
  let h := s.sys.ring 17
  let n := frame.length
  if h.enabled && decide (2 ^ h.rxLog2 < n) then s.onSys fun y => y.count Cls.ETH_RX_TOOLONG
  else if !h.enabled || h.free = 0 then s.onSys fun y => y.count Cls.ETH_RX_DROP
  else
    let buf := h.bufBase + h.modPos * 2 ^ h.rxLog2
    let rec_ := mkRecord [(0, 1, h.phase.toNat), (1, 1, port), (2, 2, h.seqno.toNat), (4, 2, n), (6, 10, s.sys.portStamp port 0),
      (16, 8, buf), (24, 1, s.time.stepGen.toNat)]
    s.onSys fun y =>
      let y1 := (y.pokeN (hostBase + buf) frame).pokeN (h.slotAddr h.modPos) (natToBytes 32 rec_.toNat)
      (y1.setRing 17 { h.advance 1 with seqno := h.seqno + 1 }).signalRing 17 false

/-- The number that `n` bytes from offset `o` spell, most significant first. -/
def beAt (bs : List Byte) (o n : Nat) : Nat := bytesToNat ((List.range n).map fun i => bs.getD (o + (n - 1 - i)) 0)

/-- A frame without its 802.1Q tag. [DEDUCED: log 155] -/
def untag (bs : List Byte) : List Byte := if beAt bs 12 2 = 0x8100 then bs.take 12 ++ bs.drop 16 else bs

/-- The configured radio unit with a source MAC address. -/
def Sys.ruOf (y : Sys) (mac : Nat) : Option Nat :=
  (List.range 8).find? fun u => (y.reg (0x040108 + 16 * u)).testBit 0 && y.reg (0x040100 + 16 * u) % 2 ^ 48 == mac

/-- Where a received frame goes (Table 16-2). -/
inductive RxClass where
  | fronthaul | fabric | transit | lldp | host | filtered
  deriving DecidableEq, Repr

/-- Classification of an untagged frame. eCPRI of a configured unit that the module does not use itself — message types other
than 0, 2 and 5, and type 5 actions other than Request — goes to the host. [DEDUCED: log 155, 156] -/
def Sys.classify (y : Sys) (port : Nat) (bs : List Byte) : RxClass :=
  let dst := beAt bs 0 6
  let src := beAt bs 6 6
  let type := beAt bs 12 2
  let net := decide (port < 4)
  let udp := type == 0x86DD && beAt bs 20 1 == 17 && beAt bs 56 2 == y.regField 0x0B0008 0 16 && y.fabricOn
  let mine := beAt bs 38 8 == y.reg 0x0B0010 && beAt bs 46 8 == y.fabricId * 256 + y.node
  if type = 0xAEFE && net && (y.ruOf src).isSome then
    let kind := beAt bs 15 1
    if kind = 0 || kind = 2 || (kind = 5 && beAt bs 19 1 = 0) then .fronthaul else .host
  else if udp && mine then .fabric
  else if udp && !net then .transit
  else if type = 0x88CC && dst = 0x0180C200000E then .lldp
  else if net && (type = 0x88F7 || type = 0xAEFE) then .host
  else if net && dst = macOfPort y port then .host
  else if net && dst = 2 ^ 48 - 1 then (if y.regField 0x040064 0 1 = 1 then .host else .filtered)
  else if net && (dst / 2 ^ 40) % 2 = 1 && y.regField 0x040064 1 1 = 1 then .host
  else .filtered

/-- A frame with a good FCS arrives. Fronthaul, fabric and LLDP frames have rows of their own. -/
def hostFrameReceive (port : Nat) (good : Bool) (frame : List Byte) (s : State) : State :=
  if !good || !(s.net.port port).up then s
  else
    let bs := untag frame
    match s.sys.classify port bs with
    | .host => deliverErxq port bs s
    | .filtered => s.onSys fun y => y.count Cls.ETH_RX_FILTERED
    | _ => s

/-! ### Discovery (R470, R471) -/

/-- CAUSE of FABRIC_MISMATCH for a neighbour's TLV on a ring port, if any: FABRIC_ID, pair side, ring port, not in the ring
order (a node ID has 6 bits, R11), ring position. [DESIGN CHOICE: log 158] -/
def Sys.mismatch (y : Sys) (port fid node nport pos : Nat) : Option Nat :=
  if fid ≠ y.fabricId then some 0
  else if node / 32 % 2 ≠ y.node / 32 then some 1
  else if nport ≠ 9 - port then some 2
  else if decide (64 ≤ node) || (y.ringPlace node).isNone then some 3
  else if pos ≠ y.ringIndex node then some 4
  else none

/-- An LLDPDU: `tlv` is Weliaco's TLV of R470, bytes FABRIC_ID, node ID, PORT, ring position, role, reserved from the low byte
up; `none` where it has none. [DEDUCED: log 159; DESIGN CHOICE: log 158] -/
def lldpReceive (port : Nat) (tlv : Option (BitVec 48)) (frame : List Byte) (s : State) : State :=
  if !(s.net.port port).up then s
  else
    let s1 := deliverErxq port (untag frame) s
    let open_ (t : State) : State :=
      if (t.net.side port).neighbour.isSome || !(t.net.side port).broken then
        ringStateSend (t.onNet fun n => n.setSide port { broken := true })
      else t
    if !s1.sys.fabricOn then s1
    else
      match tlv with
      | none =>
        if port < 4 then s1
        else
          let f := s1.sys.draw 16
          open_ { s1 with sys := f.2.event Cls.FABRIC_MISMATCH [(2, 1, port), (3, 2, f.1.toNat), (5, 1, 0)] }
      | some t =>
        let b (i : Nat) : Nat := bitsOf t.toNat (8 * i) 8
        let node := b 1
        if node = s1.sys.node then
          { s1 with
            net := { s1.net with dupNode := true },
            sys := s1.sys.event Cls.FABRIC_DUP_NODE [(2, 1, port), (3, 1, node)] }
        else if port < 4 then s1
        else
          match s1.sys.mismatch port (b 0) node (b 2) (b 3) with
          | some c => open_ (s1.onSys fun y => y.event Cls.FABRIC_MISMATCH [(2, 1, port), (3, 1, node), (4, 1, b 0), (5, 1, c)])
          | none =>
            let x := s1.net.side port
            if x.neighbour = some node && !x.broken then s1
            else ringStateSend (s1.onNet fun n => n.setSide port { neighbour := some node })

/-! ### Fronthaul receive (R463 to R466, R468) -/

/-- Bits `[p+n-1 : p]` of a message counted from its most significant bit. -/
def msbBits (total v p n : Nat) : Nat := bitsOf v (total - p - n) n

/-- One component of FORMAT 1: exponent and mantissa on the INT16 scale. -/
def bfpValue (e m : Nat) : Int := toSigned 12 m * (2 ^ e : Nat)

/-- A FORMAT 1 block of 12 samples at bit `p`; an exponent above 4 reads as zeros and is counted. -/
def bfpBlock (total v p : Nat) : List (Int × Int) × Nat :=
  let e := msbBits total v p 4
  if 4 < e then (List.replicate 12 (0, 0), 1)
  else ((List.range 12).map fun i =>
    (bfpValue e (msbBits total v (p + 4 + 24 * i) 12), bfpValue e (msbBits total v (p + 16 + 24 * i) 12)), 0)

/-- Samples of a message's payload, and blocks with a bad exponent. -/
def iqPayload (format count : Nat) (bs : List Byte) : List (Int × Int) × Nat :=
  if format = 0 then ((List.range count).map fun i => (toSigned 16 (beAt bs (4 * i) 2), toSigned 16 (beAt bs (4 * i + 2) 2)), 0)
  else
    let total := 8 * bs.length
    let v := beAt bs 0 bs.length
    (List.range (count / 12)).foldl (fun a i =>
      let b := bfpBlock total v (292 * i)
      (a.1 ++ b.1, a.2 + b.2)) ([], 0)

/-- Does the length of a message agree with COUNT and FORMAT? [DEDUCED: log 160] -/
def iqLengthOk (format count len : Nat) : Bool :=
  if format = 0 then decide (1 ≤ count ∧ count ≤ 2048) && len == 16 + 4 * count
  else format == 1 && count % 12 == 0 && decide (12 ≤ count ∧ count ≤ 2400) && len == 16 + (292 * (count / 12) + 7) / 8

/-- The slot nearest the module's own slot number whose low 32 bits a message gives. [DEDUCED: log 160] -/
def extendSlot (own slot : Nat) : Int := (own : Int) + toSigned 32 (slot + 2 ^ 32 - own % 2 ^ 32)

/-- Keep the samples of a message: those already received stay, samples beyond the slot are dropped. [DEDUCED: log 160] -/
def keepSamples (n st off : Nat) (iq : List (Int × Int)) (s : State) : State :=
  let key := streamKey n st
  let old := mapGet (fun _ => []) key s.rx.ingest
  let fresh := ((List.range iq.length).zip iq).filterMap fun e =>
    let i := off + e.1
    if s.sys.streamSamples ≤ i || old.any (fun o => o.1 == i) then none else some (i, e.2)
  let dup := iq.length != 0 && (List.range iq.length).any fun j => old.any fun o => o.1 == off + j
  let s1 := { s with
    rx := { s.rx with
      ingest := mapSet (fun _ => []) key (old ++ fresh) s.rx.ingest,
      received := natPut s.rx.received key (natAt s.rx.received key + fresh.length) } }
  if dup then s1.onSys fun y => y.count Cls.FH_DUP else s1

/-- ECPRI_IQ_RECEIVE: an uplink type 0 message, from its PC_ID on, from a source MAC address. [DEDUCED: log 156, 160] -/
def ecpriIqReceive (port mac : Nat) (msg : List Byte) (s : State) : State :=
  if decide (3 < port) || !(s.net.port port).up then s
  else
    match s.sys.ruOf mac with
    | none => s
    | some u =>
      let cfg := s.sys.reg (0x040108 + 16 * u)
      let pc := beAt msg 0 2
      let st := pc % 32
      let format := beAt msg 11 1
      let count := beAt msg 12 2
      if !(beAt msg 2 2).testBit 7 || pc / 256 ≠ bitsOf cfg 8 8 || pc.testBit 7 || !cfg.testBit (16 + st) then
        s.onSys fun y => y.count Cls.FH_UNKNOWN_PC
      else if !iqLengthOk format count msg.length then s.onSys fun y => y.count Cls.FH_FORMAT
      else if !s.job.active then s
      else
        let n := extendSlot (s.sys.slotOf s.sys.now) (beAt msg 4 4)
        if n < (s.rx.next : Int) then s.onSys fun y => y.count Cls.FH_LATE
        else if (s.rx.next : Int) + 1 < n then s.onSys fun y => y.count Cls.FH_EARLY
        else
          let iq := iqPayload format count (msg.drop 16)
          keepSamples n.toNat st (beAt msg 8 3) iq.1 (s.onSys fun y => y.countN Cls.FH_FORMAT iq.2)

/-- ECPRI_DELAY_REQUEST: the Response echoes the Measurement ID with the receive timestamp and a compensation of 0. -/
def ecpriDelayRequest (port mac : Nat) (id : Byte) (s : State) : State :=
  if decide (3 < port) || !(s.net.port port).up || (s.sys.ruOf mac).isNone then s
  else
    let y := s.sys
    let frame := y.ecpriFrame port mac 5 ([id, 1] ++ ptpStamp (y.portStamp port 0) ++ List.replicate 8 0)
    s.onSys fun z => { z with sent := z.sent ++ [.frame port frame] }

end Sys2Proof.Machine
end

