-- ==== Sys2Proof/Machine/Fabric.lean ====
section
/-! DEFINITION. The fabric's receive side, flow timers, ring supervision, the redundant pair and the Causeway (R349, R473 to
R487). -/

namespace Sys2Proof.Machine

/-! ### Requests that end (R349, R477) -/

/-- The mover packets of a request take their data, in order. -/
def fillPackets (id : Nat) (poison failed : Bool) : List Byte → List Packet → List Packet
  | _, [] => []
  | d, p :: ps =>
    if p.remote = some id then
      { p with
        data := some ((List.range p.len).map fun i => d.getD i 0), poison := poison, failed := failed }
        :: fillPackets id poison failed (d.drop p.len) ps
    else p :: fillPackets id poison failed d ps

/-- A request ends: its packets have their data or acknowledgement. [DEDUCED: log 172] -/
def endRequest (r : RemoteRequest) (data : List Byte) (poison failed : Bool) (s : State) : State :=
  (s.onCore r.core fun k => { k with packets := fillPackets r.id poison failed data k.packets }).onNet fun n =>
    { n with requests := n.requests.filter fun q => q.id != r.id }

/-- A failed request: a read lands as poisoned zeros, a write is lost, and the requester writes the record with its own tag. [DEDUCED: log 163] -/
def failRequest (status : Nat) (r : RemoteRequest) (s : State) : State :=
  (endRequest r [] true true s).onSys fun y => y.fault Cls.REMOTE_FAIL UnitCode.mover r.core r.tag status

/-! ### Acknowledgement (R473) -/

/-- Does a cumulative acknowledgement cover a SEQ? -/
def ackCovers (ack seq : BitVec 32) : Bool := decide ((ack - seq).toNat < 2 ^ 31)

/-- Packets that an acknowledgement covers leave the flow, remote writes among them complete, and the window moves on. [DEDUCED: log 161] -/
def applyAck (src : Nat) (ack : BitVec 32) (s : State) : State :=
  let f := s.net.flow src
  let rest := f.unacked.filter fun e => !ackCovers ack e.1
  if rest.length = f.unacked.length then s
  else
    let reset := match f.reset with
      | some q => if ackCovers ack q then none else some q
      | none => none
    let f1 : Flow := { f with unacked := rest, tries := 0, since := s.sys.now, reset := reset }
    let s1 := s.onNet fun n => n.setFlow src f1
    let written := s1.net.requests.filter fun r =>
      r.node == src && !r.read && ackCovers ack r.seq && f.unacked.any fun e => e.1 == r.seq
    (written.foldl (fun a r => endRequest r [] false false a) s1).pumpFlow src 256

/-- A sequenced packet: applied when it carries the next SEQ, else discarded; either way an acknowledgement is owed. RESET
restarts the flow at its SEQ. [DEDUCED: log 162] -/
def receive (x : FabricRx) (apply : State → State) (s : State) : State :=
  if !s.sys.fabricOn || !(s.net.port x.port.toNat).up then s
  else if !x.good then s.onSys fun y => y.count Cls.FABRIC_RX_BAD
  else
    let d := x.src.toNat
    let f := s.net.flow d
    let expect := if x.reset then x.seq else f.expect
    let owed := f.owed <|> some s.sys.now
    if x.seq = expect then
      applyAck d x.ack (apply (s.onNet fun n => n.setFlow d { f with expect := expect + 1, owed := owed }))
    else applyAck d x.ack (s.onNet fun n => n.setFlow d { f with expect := expect, owed := owed })

/-- A reply to a remote node. -/
def reply (d : Nat) (p : FabricPacket) (s : State) : State := if s.net.dupNode then s else s.sendFlow d p

/-! ### Memory requests (R477) -/

/-- NACK reason for an access of `n` bytes at a local address: 3 with no job, 1 unmapped or the host window, 2 fenced. -/
def State.nackReason (s : State) (a n : Nat) : Option Nat :=
  if !s.job.active then some 3
  else
    let classes := (List.range ((a % 64 + n + 63) / 64)).filterMap fun i =>
      let at_ := max a (a / 64 * 64 + 64 * i)
      if regionOf at_ = .host then some Cls.ADDR_UNMAPPED else s.sys.localFault at_
    match classes with
    | [] => none
    | c :: _ => some (if c = Cls.FENCED_ACCESS then 2 else 1)

/-- See the log. [DEDUCED: log 167] -/
def nack (x : FabricRx) (status : Nat) (s : State) : State :=
  reply x.src.toNat { kind := 0x04, reqId := x.reqId.toNat, status := status } s

/-- READ_REQ: the answer is READ_RESP with the data and its poison, or NACK. A length outside 1 to 4,096 is answered as
unmapped. [DEDUCED: log 167] -/
def readReq (x : FabricRx) (s : State) : State :=
  receive x (fun t =>
    let a := x.addr.toNat
    let n := beAt x.body 0 4
    if n = 0 || decide (4096 < n) || x.body.length != 4 then nack x 1 t
    else
      match t.nackReason a n with
      | some r => nack x r t
      | none =>
        let r := if regionOf a = .control then freeBytes n t.sys else (t.sys.peekN a n, t.sys)
        reply x.src.toNat { kind := 0x02, reqId := x.reqId.toNat, body := r.1, poison := t.sys.poisoned a n } { t with sys := r.2 }) s

/-- READ_RESP: the data waits at the requesting mover for its landing. -/
def readResp (x : FabricRx) (s : State) : State :=
  receive x (fun t =>
    match t.net.requests.find? fun r => r.node == x.src.toNat && r.id % 2 ^ 32 == x.reqId.toNat && r.read with
    | some r => endRequest r x.body x.poison false t
    | none => t) s

/-- WRITE: stored by the destination's own map; in the control range nothing is stored. -/
def write (x : FabricRx) (s : State) : State :=
  receive x (fun t =>
    let a := x.addr.toNat
    match t.nackReason a x.body.length with
    | some r => nack x r t
    | none => if regionOf a = .control then t else t.landWrite a x.body (List.replicate x.body.length x.poison)) s

/-- NACK: the request fails. [DEDUCED: log 167, 172] -/
def nackReceive (x : FabricRx) (s : State) : State :=
  receive x (fun t =>
    match t.net.requests.find? fun r => r.node == x.src.toNat && r.id % 2 ^ 32 == x.reqId.toNat with
    | some r => failRequest x.status.toNat r t
    | none => t) s

/-! ### Contributions (R105, R478, R479, Table 16-6) -/

/-- The contribution of a COMBINE body without its data, its part's offset and bytes. -/
def parseCombine (src : Nat) (b : List Byte) : Contribution × Nat × List Byte :=
  let key := beAt b 0 4
  ({ kind := beAt b 4 1, node := src, shortId := BitVec.ofNat 20 key, profile := key / 2 ^ 20 % 16, seq := BitVec.ofNat 8 (key / 2 ^ 24),
     lenM1 := beAt b 5 1, channel := BitVec.ofNat 16 (beAt b 6 2), start := beAt b 8 8, finish := beAt b 16 8,
     rssi := toSigned 16 (beAt b 24 2), snr := toSigned 8 (beAt b 26 1), ackReq := (beAt b 27 1).testBit 0,
     repeatBit := (beAt b 27 1).testBit 1 },
   beAt b 28 2, (b.drop 32).take (beAt b 30 2))

/-- Bytes of a whole contribution's data. -/
def contributionBytes (s : State) (c : Contribution) : Nat :=
  let p := profileOf c.profile
  if c.kind = 0 then payloadBits p.rate p.z (burstOf s c).infoBits else c.lenM1 + 4

/-- Put a part into a contribution; `received` lists the bytes that have come. -/
def putPart (c : Contribution) (off : Nat) (data : List Byte) : Contribution :=
  let fresh := ((List.range data.length).map fun i => off + i).filter fun i => decide (i < c.parts) && !c.received.contains i
  { c with
      received := c.received ++ fresh,
      llrs := if c.kind = 0 then patchAt' off (data.map fun v => toSigned 8 v.toNat) c.llrs else c.llrs,
      bytes := if c.kind = 0 then c.bytes else (patchAt off data c.bytes).take c.bytes.length }
where
  patchAt' (o : Nat) (new l : List Int) : List Int := (l.take o ++ new ++ l.drop (o + new.length)).take l.length

/-- PROFILE and LEN_M1 that a burst already has here: of the own reception, else of the first contribution to arrive. -/
def State.fixedShape (s : State) (c : Contribution) : Option (Nat × Nat) :=
  let t := symbolTime (profileOf c.profile).width
  match s.rx.bursts.find? fun b => (b.state == .opened || b.state == .closed) && sameBurst b.shortId b.seq b.startNs t c with
  | some b => some (b.profile, b.lenM1)
  | none =>
    match s.rx.seen.find? fun e => sameBurst e.shortId e.seq e.start t c with
    | some e => some (e.profile, e.lenM1)
    | none => (s.rx.contributions.find? fun d => sameBurst d.shortId d.seq d.start t c).map fun d => (d.profile, d.lenM1)

/-- A contribution is discarded and counted, once for all its parts. [DESIGN CHOICE: log 71] -/
def refuseContribution (cls : Nat) (c : Contribution) (s : State) : State :=
  if s.rx.refusedCombine.contains c.key || s.rx.contributions.any fun d => d.key == c.key then s
  else
    { s with
      rx := { s.rx with refusedCombine := s.rx.refusedCombine ++ [c.key] },
      sys := s.sys.count cls }

/-- A part of a contribution that arrives in time joins its contribution. [DESIGN CHOICE: log 71] -/
def takeContribution (src : Nat) (body : List Byte) (s : State) : State :=
  let r := parseCombine src body
  let c := r.1
  let due := (s.sys.slotOf c.finish + 1) * s.sys.slotLen + s.job.combineWait * 1000
  if !s.job.active then s
  else if due ≤ s.sys.now then refuseContribution Cls.COMBINE_LATE c s
  else if s.rx.refusedCombine.contains c.key then s
  else
    match s.fixedShape c with
    | some (p, l) =>
      if p ≠ c.profile ∨ l ≠ c.lenM1 then refuseContribution Cls.COMBINE_MISMATCH c s else place c r.2.1 r.2.2 s
    | none => place c r.2.1 r.2.2 s
where
  place (c : Contribution) (off : Nat) (data : List Byte) (s : State) : State :=
    let same (d : Contribution) : Bool :=
      d.node == c.node && d.shortId == c.shortId && d.seq == c.seq && d.start == c.start && d.kind == c.kind
    match s.rx.contributions.findIdx? same with
    | some i =>
      { s with rx := { s.rx with contributions := s.rx.contributions.modify i fun d => putPart d off data } }
    | none =>
      let n := contributionBytes s c
      let c0 : Contribution :=
        { c with
          llrs := if c.kind = 0 then List.replicate n 0 else [], bytes := if c.kind = 0 then [] else List.replicate n 0,
          parts := n }
      { s with rx := { s.rx with contributions := s.rx.contributions ++ [putPart c0 off data] } }

def combine (x : FabricRx) (s : State) : State := receive x (takeContribution x.src.toNat x.body) s

/-! ### Other sequenced and unsequenced packets -/

/-- SEQ_SYNC: the partner's LAST_SEQ is taken over for a registered session (R483). -/
def seqSync (x : FabricRx) (s : State) : State :=
  receive x (fun t =>
    let v := beAt x.body 0 4
    let sid := v % 2 ^ 20
    if t.sys.pairOn && x.src.toNat == t.sys.partner && t.sys.registered sid then
      t.setLastSeq (BitVec.ofNat 20 sid) (BitVec.ofNat 8 (v / 2 ^ 24))
    else t) s

/-- ACK_ONLY. -/
def ackOnly (x : FabricRx) (s : State) : State :=
  if !s.sys.fabricOn || !(s.net.port x.port.toNat).up then s
  else if !x.good then s.onSys fun y => y.count Cls.FABRIC_RX_BAD
  else applyAck x.src.toNat x.ack s

/-- An acknowledgement still owed to a node leaves in an ACK_ONLY. -/
def flowAckSend (d : Nat) (s : State) : State :=
  if (s.net.flow d).owed.isSome then s.sendPlain d { kind := 0x23 } else s

/-- Reset of a flow: every outstanding request fails, every outstanding COMBINE is lost, the next packet carries RESET. [DEDUCED: log 162, 163, 164] -/
def flowReset (d : Nat) (s : State) : State :=
  let f := s.net.flow d
  let packets := f.unacked.map Prod.snd ++ f.waiting
  let s1 := (s.net.requests.filter fun r => r.node == d).foldl (fun a r => failRequest 0 r a) s
  let lost := (packets.filter fun p => p.kind == 0x10).length
  let f1 : Flow := { f with unacked := [], waiting := [], tries := 0, reset := some f.next }
  (s1.onSys fun y => y.countN Cls.COMBINE_LOST lost).onNet fun n => n.setFlow d f1

/-- RETX_TIMEOUT of a flow: 40 µs without progress. [DEDUCED: log 162] -/
def retxTimeout (d : Nat) (s : State) : State :=
  let f := s.net.flow d
  if f.unacked.isEmpty || decide (s.sys.now < f.since + 40000) then s
  else if 6 ≤ f.tries then flowReset d s
  else
    let s1 := s.onNet fun n => { n.setFlow d { f with tries := f.tries + 1, since := s.sys.now } with linkRetry := true }
    f.unacked.foldl (fun a e => a.transmit d e.1 (f.reset == some e.1) e.2) s1

/-! ### Ring supervision (R474, R475) -/

/-- A keepalive came on a ring port: its link is sound again when its neighbour is accepted. [DEDUCED: log 166] -/
def keepalive (p : Nat) (good : Bool) (s : State) : State :=
  if decide (p < 4) || !(s.net.port p).up || !s.sys.fabricOn then s
  else if !good then s.onSys fun y => y.count Cls.FABRIC_RX_BAD
  else
    let x := s.net.side p
    let s1 := s.onNet fun n => n.setSide p { x with misses := 0, broken := x.broken && x.neighbour.isNone }
    if x.broken && x.neighbour.isSome then ringStateSend s1 else s1

/-- KEEPALIVE and RING_STATE leave on each ring link. -/
def keepaliveSend (s : State) : State :=
  let pk : FabricPacket := { kind := 0x20 }
  ringStateSend (ringSend 5 pk (ringSend 4 pk s))

/-- A keepalive of a ring link has not come, or its PCS has lost lock: the third miss, and the loss of lock, break the link. -/
def keepaliveMiss (p : Nat) (lockLost : Bool) (s : State) : State :=
  if decide (p < 4) || !(s.net.port p).up then s
  else
    let x := s.net.side p
    let broken := x.broken || lockLost || decide (3 ≤ x.misses + 1)
    let s1 := s.onNet fun n => n.setSide p { x with misses := min 3 (x.misses + 1), broken := broken }
    if broken && !x.broken then ringStateSend s1 else s1

/-- RING_STATE of a module of the ring: its broken links and its bypass list; it goes on out of the other ring port unless it
is this module's own. [UNVERIFIED: log 19] -/
def ringState (p : Nat) (good : Bool) (src : Nat) (brokenE brokenW : Bool) (bypass : BitVec 32) (packet : List Byte) (s : State) :
    State :=
  if decide (p < 4) || !(s.net.port p).up || !s.sys.fabricOn || s.pins.bypassState then s
  else if !good then s.onSys fun y => y.count Cls.FABRIC_RX_BAD
  else if src = s.sys.node then s
  else
    let v := brokenE.toNat + 2 * brokenW.toNat + 4 * bypass.toNat
    let s1 := s.onNet fun n => { n with peers := natPut n.peers src v }
    if (s.net.port (9 - p)).up then s1.onSys fun y => { y with sent := y.sent ++ [.fabric (9 - p) 0 packet false] } else s1

/-- A frame for another node goes out of the other ring port, or is dropped when that is down. -/
def fabricTransit (p : Nat) (packet : List Byte) (s : State) : State :=
  if decide (p < 4) || decide (5 < p) || !(s.net.port p).up || s.pins.bypassState then s
  else if (s.net.port (9 - p)).up then s.onSys fun y => { y with sent := y.sent ++ [.fabric (9 - p) 0 packet false] }
  else s

/-! ### Redundant pair (R482 to R487) -/

/-- FLAGS of PAIR_HB. [DEDUCED: log 170] -/
def State.hbFlags (s : State) : Nat :=
  (s.job.state == .running).toNat + 2 * (!s.time.timingUnsafe).toNat + 4 * s.net.faulted.toNat + 8 * s.net.relinquish.toNat

/-- PAIR_HB at the start of a slot, by the switched route to the partner. [DEDUCED: log 168] -/
def sendHeartbeat (s : State) : State :=
  if s.sys.pairOn && s.sys.fabricOn && !s.net.dupNode then
    match s.sys.switched s.sys.partner with
    | some (port, mac) =>
      if (s.net.port port).up then
        let body := bytesBE 8 (s.sys.slotOf s.sys.now) ++ [BitVec.ofNat 8 s.net.role, BitVec.ofNat 8 s.hbFlags] ++ List.replicate 6 0
        let d := s.sys.partner
        (s.onSys fun y => { y with
          sent := y.sent ++ [.fabric port mac (packetBytes y.node d 0 (s.net.flow d).ackValue.toNat false { kind := 0x22, body := body }) false] }).onNet
          fun n => { n.setFlow d { n.flow d with owed := none } with relinquish := n.relinquish && n.role == 2 }
      else s
    | none => s
  else s

/-- PAIR_HB_SEND: with no job active, the start of a slot is also where a handover takes effect. [DEDUCED: log 168, 170] -/
def pairHbSend (s : State) : State :=
  let s1 := if s.job.active then s else s.onNet fun n => { n with role := n.roleNext.getD n.role, roleNext := none }
  sendHeartbeat s1

/-- May this standby take the role over (R485)? [DEDUCED: log 169] -/
def State.mayTake (s : State) : Bool := s.job.state == .running && !s.time.timingUnsafe && !s.net.faulted

/-- PAIR_TAKEOVER: first slot as active and CAUSE. [DEDUCED: log 169] -/
def takeoverEvent (cause slot : Nat) (s : State) : State :=
  s.onSys fun y => y.event Cls.PAIR_TAKEOVER [(2, 6, slot % 2 ^ 48), (8, 1, cause)]

/-- A standby becomes active at the next boundary, or counts that it could not. [DEDUCED: log 169] -/
def takeNext (cause : Nat) (s : State) : State :=
  if s.mayTake then takeoverEvent cause (s.sys.slotOf s.sys.now + 1) (s.onNet fun n => { n with roleNext := some 2 })
  else s.onSys fun y => y.count Cls.PAIR_NO_TAKEOVER

/-- RELINQUISH: the active module yields at the next slot boundary. [DEDUCED: log 170] -/
def relinquish (s : State) : State :=
  if s.sys.pairOn && s.net.role == 2 then s.onNet fun n => { n with roleNext := some 1, relinquish := true } else s

/-- TAKE: the standby module takes the role at the next slot boundary. [DEDUCED: log 170] -/
def take (s : State) : State :=
  if s.sys.pairOn && s.net.role == 1 && s.net.roleNext != some 2 then takeNext 3 s else s

/-- PAIR_HB from the partner: its slot, role and FLAGS. -/
def pairHb (good : Bool) (src : Nat) (slot : BitVec 64) (role flags : Byte) (s : State) : State :=
  if !s.sys.fabricOn || !s.sys.pairOn then s
  else if !good then s.onSys fun y => y.count Cls.FABRIC_RX_BAD
  else if src ≠ s.sys.partner then s
  else
    let s1 := s.onNet fun n => { n with partnerSlot := some slot.toNat }
    let yields := flags.getLsbD 2 || flags.getLsbD 3
    if s1.net.role = 1 && yields && s1.net.roleNext != some 2 then takeNext (if flags.getLsbD 2 then 1 else 2) s1
    else if s1.net.role = 2 && role.toNat = 2 then
      let s2 := s1.onSys fun y => y.count Cls.PAIR_DUAL_ACTIVE
      if s2.sys.sideB then s2.onNet fun n => { n with roleNext := some 1 } else s2
    else s1

/-- PAIR_TAKEOVER: the partner's last heartbeat lies three slots back. [DEDUCED: log 169] -/
def pairTakeover (s : State) : State :=
  match s.net.partnerSlot with
  | some p =>
    if s.sys.pairOn && s.net.role == 1 && decide (p + 3 ≤ s.sys.slotOf s.sys.now) then
      if s.mayTake then
        takeoverEvent 0 (s.sys.slotOf s.sys.now) (s.onNet fun n => { n with role := 2, roleNext := none })
      else s.onSys fun y => y.count Cls.PAIR_NO_TAKEOVER
    else s
  | none => s

/-! ### The Causeway (R480) -/

/-- E and W are joined and the ring ports isolated. -/
def closeCauseway (s : State) : State :=
  let net := { ((s.net.setPort 4 {}).setPort 5 {}) with laneOk := s.net.laneOk &&& 0x0F }
  { s with
    pins := { s.pins with bypassState := true },
    net := (net.setSide 4 { broken := true }).setSide 5 { broken := true } }

/-- Does a cause of closure hold? -/
def State.causewayCause (s : State) : Bool :=
  !s.heron.powered || s.heron.inReset || s.heron.recovery || s.heron.moduleStop || s.pins.bypassForce

def causewayClose (s : State) : State := if s.causewayCause then closeCauseway s else s

/-- Heron opens it when no cause holds and the ring SerDes are powered and ready to train. [DESIGN CHOICE: log 149] -/
def causewayOpen (s : State) : State :=
  if s.causewayCause || !s.ringSerdes || decide (s.heron.stage < 8) then s
  else { s with pins := { s.pins with bypassState := false } }

/-- BYPASS_FORCE asserted or released. -/
def bypassForce (asserted : Bool) (s : State) : State :=
  let s1 := { s with pins := { s.pins with bypassForce := asserted } }
  if asserted then closeCauseway s1 else s1

end Sys2Proof.Machine
end

