-- ==== Sys2Proof/Machine/Boot.lean ====
section
/-! DEFINITION. Start-up, full reset, the firmware image and its broadcast (R497 to R504, R538 to R549, R602, R607). -/

namespace Sys2Proof.Machine

/-- Is the module running: VAUX present, not in full reset, not in module stop? -/
def State.up (s : State) : Bool := s.heron.powered && !s.heron.inReset && !s.heron.moduleStop

/-! ### The firmware image (R543, R544) -/

/-- First failing check of Table 19-6, 0 when all pass: 1 FORMAT, 2 SIGNATURE, 3 SVN, 4 LAYOUT. [DEDUCED: log 32] -/
def fwReason (fuses : FuseArray) (img : List Byte) : Nat :=
  let f := fieldAt img
  let len := f 0x10 8
  let b := len - 8192
  let key := (img.drop (b + 16)).take 1952
  let digest := Config.shake256 (img.take b)
  let heron := (f 0x18 4, f 0x1C 4)
  let core := (f 0x20 4, f 0x24 4)
  if img.take 4 != [0x49, 0x4D, 0x46, 0x57] || f 4 2 != 1 || len % 4096 != 0 || decide (4194304 < len) || decide (len < 12288)
      || decide (img.length < len) then 1
  else if f b 2 != 1 || f (b + 2) 2 != 3309 || f (b + 4) 2 != 1952 || Config.shake256 key != fuses.firmwareKey
      || !Config.mlDsaVerify key (natToBytes 64 digest.toNat) ((img.drop (b + 1968)).take 3309) then 2
  else if f 0x0C 4 < fuses.svn then 3
  else if decide (len < heron.1 + heron.2) || decide (len < core.1 + core.2) || overlap heron core || core.2 != 114688
      || (Config.shake256 ((img.drop core.1).take core.2)).toNat != f 0x28 64 then 4
  else 0

/-- Heron runs an accepted image. -/
def runImage (img : List Byte) (s : State) : State :=
  let b := fieldAt img 0x10 8 - 8192
  { s with
    heron := { s.heron with
      running := img, fwVersion := BitVec.ofNat 32 (fieldAt img 8 4), fwDigest := Config.shake256 (img.take b),
      recovery := false, recoveryReason := 0 } }

/-! ### Full reset (Table 19-1) -/

/-- The module as a full reset leaves it before start-up: what no reset touches is kept — fuses, flash, secure store, host memory,
what has left the module, the input pins. Flash that was being programmed holds no valid image (R548, R564). [DEDUCED: log 37] -/
def freshState (s : State) : State :=
  { pending := s.pending,
    sys := { mem := mapFilter (fun a => decide (hostBase ≤ a)) s.sys.mem, sent := s.sys.sent, seed := s.sys.seed },
    heron := {
      powered := s.heron.powered, flash := if s.heron.flashJob.isSome then [] else s.heron.flash, fuses := s.heron.fuses,
      keys := s.heron.keys, keyEpoch := s.heron.keyEpoch, identityKey := s.heron.identityKey,
      identityCert := s.heron.identityCert, stopCause := s.heron.stopCause },
    storage := { fieldRepair := s.storage.fieldRepair },
    pins := { modRstN := s.pins.modRstN, perstN := s.pins.perstN, bypassForce := s.pins.bypassForce },
    jtag := s.jtag }

/-- Held in full reset: Heron stays in ROM, MAIN_EN low, the Causeway closed (R607, R609). [DEDUCED: log 37] -/
def holdReset (s : State) : State :=
  let f := freshState s
  { f with heron := { f.heron with inReset := true } }

/-! ### Repair and tests (R501 to R504) -/

/-- Spare rows of a bank or macro (Table 17-4). -/
def spareRowsOf (peat : Bool) : Nat := if peat then 16 else 2

/-- Every listed row is mapped to a spare that the fuse map leaves unused, as long as there is one. [DESIGN CHOICE: log 35] -/
def applyRepair (s : State) : State :=
  let key (r : RepairRow) : Nat := (r.unit * 2 + r.peat.toNat) * 16 + r.bank
  let rows := s.storage.fieldRepair
  let done := (List.range rows.length).map fun i =>
    let r := rows.getD i {}
    let before := ((rows.take i).filter fun x => key x == key r).length
    let ok := decide (natAt s.heron.shadow.spareRows (key r) + before < spareRowsOf r.peat)
    { r with applied := ok, noSpare := !ok }
  let fresh := ((List.range rows.length).filter fun i => (done.getD i {}).noSpare && !(rows.getD i {}).noSpare).length
  { s with
    storage := { s.storage with fieldRepair := done, rowHits := [] }, sys := s.sys.countN Cls.REPAIR_NO_SPARE fresh }

/-- CHECKER_FAIL of a unit; the manual does not number the checkers. [UNVERIFIED: log 33] -/
def checkerFail (unit : Nat) (y : Sys) : Sys :=
  let d := y.draw 16
  d.2.event Cls.CHECKER_FAIL [(2, 2, d.1.toNat), (4, 1, unit)]

/-- Quarter beyond a die-to-die link, seen from base die 0. -/
def quarterBeyond (link : Nat) : Nat := if link = 0 then 1 else if link = 1 then 2 else 3

def markLost (q : Nat) (y : Sys) : Sys :=
  { y with fences := { y.fences with lost := y.fences.lost ||| (1#4 <<< q), everLost := y.fences.everLost ||| (1#4 <<< q) } }

/-- Fences of the fuse maps: cores, decoders, and quarters beyond a link with more than 16 failed lanes in a direction. [DEDUCED: log 34] -/
def fuseFences (s : State) : State :=
  let f := s.heron.shadow
  let y1 := ((List.range 1024).filter fun c => f.badCore.getLsbD c).foldl (fun (y : Sys) c => y.fenceCore c 1) s.sys
  let y2 := { y1 with
    fences := { y1.fences with
      decoder := ((List.range 64).filter fun g => f.badDecoder.getLsbD g).foldl (fun m g => putFence m g 1) y1.fences.decoder } }
  { s with sys := (f.d2dFailed.filter fun e => decide (16 < e.2.length)).foldl (fun y e => markLost (quarterBeyond (e.1 / 2)) y) y2 }

/-- Checkers that fail fence their units (Table 17-6); fenced units are not tested. [DEDUCED: log 34] -/
def testFences (b : BootInputs) (channels : Nat → Bool) (y : Sys) : Sys :=
  let y1 := (b.coreCheckerFail.filter fun c => !y.coreFenced c.toNat).foldl (fun (a : Sys) c =>
    (checkerFail UnitCode.sequencer a).fenceCore c.toNat 2) y
  let y2 := (b.peatCheckerFail.filter fun g => !y.peatFenced g.toNat).foldl (fun (a : Sys) g =>
    let z := checkerFail UnitCode.peat a
    { z with fences := { z.fences with peat := putFence z.fences.peat g.toNat 2 } }) y1
  let y3 := (b.sliceCheckerFail.filter fun g => !y.sliceFenced g.toNat).foldl (fun (a : Sys) g =>
    let z := checkerFail UnitCode.contextSlice a
    { z with
      fences := { z.fences with slice := putFence z.fences.slice g.toNat 2, peat := putFence z.fences.peat g.toNat 2 } }) y2
  let y4 := (b.decoderCheckerFail.filter fun g => !y.decoderFenced g.toNat).foldl (fun (a : Sys) g =>
    let z := checkerFail UnitCode.graphDecoder a
    { z with fences := { z.fences with decoder := putFence z.fences.decoder g.toNat 2 } }) y3
  let y5 := (b.channelCheckerFail.filter fun n => channels n.toNat && !y.channelFenced n.toNat).foldl (fun (a : Sys) n =>
    let z := checkerFail UnitCode.lpddr6 a
    { z with fences := { z.fences with channel := putFence z.fences.channel n.toNat 2 } }) y4
  b.linkCheckerFail.foldl (fun a l => markLost (quarterBeyond l.toNat) (checkerFail UnitCode.dieToDieLink a)) y5

/-- Channels that do not train are fenced (step 6). -/
def trainChannels (ns : List Nat) (untrained : BitVec 16) (s : State) : State :=
  ns.foldl (fun a n =>
    if untrained.getLsbD n then
      a.onSys fun y => { y with fences := { y.fences with channel := putFence y.fences.channel n 2 } }
    else { a with storage := { a.storage with trained := a.storage.trained ||| (1#16 <<< n) } }) s

/-! ### Firmware broadcast (R546, R547) -/

/-- Packets that do not arrive clean at a core in a round. [DEDUCED: log 164] -/
def lostPackets (b : BootInputs) (core round : Nat) : List Nat :=
  (b.fwLost.filter fun e => e.1.toNat == core && e.2.1.toNat == round).map fun e => e.2.2.toNat

/-- Rounds of a core from `round` on: packets still missing; it is loaded when none is and its digest matches. -/
def fwRounds (b : BootInputs) (core : Nat) : Nat → Nat → List Nat → List Nat × Bool
  | 0, _, missing => (missing, false)
  | n + 1, round, missing =>
    let left := missing.filter (lostPackets b core round).contains
    if left.isEmpty then
      if b.fwBadDigest.any fun e => e.1.toNat == core && e.2.toNat == round then fwRounds b core n (round + 1) (List.range 448)
      else ([], true)
    else fwRounds b core n (round + 1) left

/-- The core firmware of the image that Heron runs (Table 19-4). -/
def Heron.coreFirmware (h : Heron) : List Byte := (h.running.drop (fieldAt h.running 0x20 4)).take (fieldAt h.running 0x24 4)

/-- The Signal Unit runtime of the core firmware, by byte address in program memory (Table 19-5, R315). -/
def runtimeMap (fw : List Byte) : SMap Byte :=
  (((List.range 16384).zip ((fw.drop 32768).take 16384)).filter fun e => e.2 != 0)

/-- A loaded core's program memory: the runtime below 0x4000, the image's part as it was. -/
def loadRuntime (runtime : SMap Byte) (k : Core) : Core :=
  { k with su := { k.su with c := runtime ++ mapFilter (fun a => decide (0x4000 ≤ a)) k.su.c } }

/-- The multicast and the three unicast rounds for every core that is not fenced (R546, R547): a loaded core holds the core firmware; one
not loaded at the end is fenced. The redirect map and entry table come with the firmware (R213). -/
def broadcast (b : BootInputs) (s : State) : State :=
  let fw := s.heron.coreFirmware
  let runtime := runtimeMap fw
  ((List.range 1024).filter fun c => !s.sys.coreFenced c).foldl (fun a c =>
    let r := fwRounds b c 4 0 (List.range 448)
    let bitmap : BitVec 448 := BitVec.ofNat 448 (2 ^ 448 - 1 - r.1.foldl (fun m n => m + 2 ^ n) 0)
    let a1 : State := { a with heron := { a.heron with received := mapSet (fun _ => (0 : BitVec 448)) c bitmap a.heron.received } }
    if r.2 then
      ({ a1 with heron := { a1.heron with loaded := flagPut a1.heron.loaded c true } } : State).onCore c (loadRuntime runtime)
    else a1.onSys fun y => (y.fenceCore c 2).event Cls.FW_CORE_FENCED [(2, 2, c)])
    { s with heron := { s.heron with received := [], loaded := [], patches := Config.patchMap (fw.drop 113664) } }

/-- Cores whose BIST fails are fenced. -/
def bist (b : BootInputs) (s : State) : State :=
  s.onSys fun y => b.bistFail.foldl (fun (a : Sys) c => a.fenceCore c.toNat 2) y

/-! ### The power-on order (Table 19-2) -/

def Sys.goodCores (y : Sys) : Nat := ((List.range 1024).filter fun c => !y.coreFenced c).length
def Sys.goodDecoders (y : Sys) : Nat := ((List.range 64).filter fun g => !y.decoderFenced g).length

/-- Quarters released and not lost (Table 21-2). -/
def Sys.workingQuarters (y : Sys) : Nat :=
  ((List.range 4).filter fun q => y.fences.released.getLsbD q && !y.quarterLost q).foldl (fun m q => m + 2 ^ q) 0

def atStage (n : Nat) (s : State) : State := { s with heron := { s.heron with stage := n } }

/-- RAIL_FAIL: start-up stops with MAIN_REQ withdrawn and FAULT_N low. -/
def railFail (rails vddc : Nat) (s : State) : State :=
  { s with
    sys := s.sys.event Cls.RAIL_FAIL [(2, 1, rails), (3, 1, vddc)],
    power := { s.power with mainReq := false, mainGood := false },
    pins := { s.pins with mainEn := false, faultN := false } }

/-- The Sluice's run of one frame of each kind (step 9). -/
def startupRun (defects : BitVec 6) : Nat → State → State
  | 0, s => s
  | n + 1, s => startupRun defects n (selfTest (defects.getLsbD s.sluice.nextKind) s)

/-- Steps 6 to 9, from LPDDR6 training on, and the security counter (R545). [DESIGN CHOICE: log 10] -/
def bootOn (b : BootInputs) (s : State) : State :=
  let s6 := atStage 6 (trainChannels (List.range 16) b.untrained s)
  let s7 := atStage 7 (broadcast b (bist b s6))
  let y := { s7.sys with fences := { s7.sys.fences with released := BitVec.allOnes 4 &&& ~~~s7.sys.fences.lost } }
  let s8 := atStage 8 { s7 with
    sys := y.event Cls.MODULE_READY [(2, 1, y.workingQuarters), (4, 2, y.goodCores), (6, 1, y.goodDecoders)] }
  let s9 := atStage 9 (startupRun b.selftestDefect 6 { s8 with
    sluice := { s8.sluice with released := true, preloadActive := true, lastRun := s8.sys.slotOf s8.sys.now } })
  let svn := max s9.heron.fuses.svn (fieldAt s9.heron.running 0x0C 4)
  { s9 with
    heron := { s9.heron with fuses := { s9.heron.fuses with svn := svn }, shadow := { s9.heron.shadow with svn := svn } } }

/-- Steps 3 to 5; then on, or to wait in recovery. [DESIGN CHOICE: log 10] -/
def bootFrom3 (b : BootInputs) (s : State) : State :=
  if b.railsIo ≠ 0 then railFail b.railsIo.toNat 0 s
  else if !b.comparatorsOk then s
  else
    let s3 := atStage 3 { s with pins := { s.pins with faultN := true } }
    let s3r := { s3 with power := { s3.power with mainReq := true }, pins := { s3.pins with mainEn := true } }
    if b.railsMain ≠ 0 ∨ b.railsCompute ≠ 0 then railFail b.railsMain.toNat b.railsCompute.toNat s3r
    else
      let s4 := atStage 4 { s3r with power := { s3r.power with mainGood := true } }
      let s5 := (fuseFences (applyRepair s4)).onSys (testFences b fun _ => true)
      if b.heronCheckerFail then { s5 with pins := { s5.pins with faultN := false } }
      else if s5.heron.recovery then atStage 5 s5
      else bootOn b (atStage 5 s5)

/-- MAC addresses from the fuses, one for each port. [UNVERIFIED: log 36] -/
def fuseMacs (s : State) : State :=
  s.onSys fun y => (List.range 6).foldl (fun (a : Sys) p => a.setReg (0x040010 + 8 * p) (Config.portMac s.heron.fuses.macBase p).toNat) y

/-- The power-on order from step 1 on. [DESIGN CHOICE: log 10] -/
def powerOn (b : BootInputs) (s : State) : State :=
  if !b.heronRamOk then s
  else
    let s1 := atStage 1 s
    if !b.fuseReadOk then s1
    else
      let s2 := fuseMacs { s1 with heron := { s1.heron with shadow := s1.heron.fuses } }
      let r := fwReason s2.heron.fuses s2.heron.flash
      if r = 0 then bootFrom3 b (atStage 2 (runImage s2.heron.flash s2))
      else bootFrom3 b { s2 with heron := { s2.heron with recovery := true, recoveryReason := r } }

/-- Start-up after a full reset, unless a pin or JTAG still holds it. [DESIGN CHOICE: log 10] -/
def startUp (b : BootInputs) (s : State) : State :=
  if !s.pins.modRstN || s.jtag.instr == some .extest then holdReset s else powerOn b (freshState s)

/-- VAUX rises. [DESIGN CHOICE: log 10] -/
def powerUp (b : BootInputs) (s : State) : State :=
  startUp b { s with heron := { s.heron with powered := true, stopCause := 0 } }

/-- VAUX is lost: everything stops; the outputs fall by their pull-downs and the Causeway closes (R602, R603, R613). -/
def vauxLost (s : State) : State :=
  let f := freshState s
  { f with heron := { f.heron with powered := false, stopCause := 0 } }

/-- Does a low pulse of this many ns reset the module (R538, R607)? [UNVERIFIED: log 16] -/
def resetTakes (held : Nat) : Bool :=
  if held < 10000 then false else if 1000000 ≤ held then true else Config.shortResetTakes held

/-- MOD_RST_N: `low` tells its level now, `held` how long it has been or was low. [UNVERIFIED: log 16] -/
def modRst (low : Bool) (held : Nat) (b : BootInputs) (s : State) : State :=
  let s1 := { s with pins := { s.pins with modRstN := !low } }
  if !s.heron.powered then s1
  else if low then (if resetTakes held then holdReset s1 else s1)
  else if s.heron.inReset || resetTakes held then startUp b s1
  else s1

end Sys2Proof.Machine
end

