-- ==== Sys2Proof/Machine/Mailbox.lean ====
section
/-! DEFINITION. Heron's mailbox: firmware update and recovery, compute reset, keys, attestation and identity (R31, R548 to
R556, R564). -/

namespace Sys2Proof.Machine

/-! ### The mailbox (R550, R551) -/

def mbxCmdOff : Nat := 0x010000
def mbxAddrOff : Nat := 0x010008
def mbxLenOff : Nat := 0x010010

/-- A command completes: BUSY clears unless flash is still being programmed, and EVQ, when enabled, takes HERON_MBX_DONE. [DEDUCED: log 43] -/
def mbxDone (cmd status reason : Nat) (s : State) : State :=
  let s1 := { s with
    heron := { s.heron with mbxStatus := status, mbxReason := reason, mbxBusy := s.heron.flashJob.isSome } }
  s1.onSys fun y =>
    if (y.ring evq).enabled then y.event Cls.HERON_MBX_DONE [(2, 1, cmd), (3, 1, status), (4, 1, reason)]
    else y.count Cls.HERON_MBX_DONE

/-- A mailbox command: the host has started it by a write of GO, and Heron runs it now; or the host writes CMD, FLAGS, ADDR and LEN and
then GO. While a command is in progress GO is ignored and counted; only a COMPUTE_RESET goes on beside flash programming (R564). [DEDUCED: log 42] -/
def mailbox (cmd flags : Nat) (addr : BitVec 64) (len : Nat) (run : State → State) (s : State) : State :=
  if s.heron.mbxStarted = cmd then run { s with heron := { s.heron with mbxStarted := 0 } }
  else
  let s1 := s.onSys fun y =>
    ((y.setReg mbxCmdOff (cmd + 256 * (flags % 256))).setReg mbxAddrOff addr.toNat).setReg mbxLenOff (len % 2 ^ 32)
  if s1.heron.mbxBusy && !(cmd == 3 && s1.heron.flashJob.isSome) then s1.onSys fun y => y.count Cls.MBX_BUSY
  else run { s1 with heron := { s1.heron with mbxCmd := if s1.heron.mbxBusy then s1.heron.mbxCmd else cmd } }

/-- Status codes: INVALID 2, WRONG_STATE 3, REJECTED 5. [DEDUCED: log 42] -/
def mbxWrong (cmd : Nat) (s : State) : State := mbxDone cmd 3 0 s

/-- A response written to host memory; it is dropped while the link is down (R564). -/
def mbxRespond (addr : BitVec 64) (bs : List Byte) (s : State) : State :=
  if s.heron.pcieUp then s.onSys fun y => y.pokeN (hostBase + addr.toNat) bs else s

/-! ### FW_UPDATE and RECOVERY_LOAD (R548, R549) -/

/-- Heron begins to erase and program the flash. -/
def programFlash (img : List Byte) (s : State) : State :=
  { s with heron := { s.heron with flash := [], flashJob := some img, mbxBusy := true } }

/-- The image within the bytes read from the host. -/
def trimImage (img : List Byte) : List Byte := img.take (fieldAt img 0x10 8)

/-- See the log. [DEDUCED: log 32, 37] -/
def fwUpdateRun (addr : BitVec 64) (img : List Byte) (s : State) : State :=
  if s.heron.recovery then mbxWrong 1 s
  else if !hostRange addr.toNat img.length then mbxDone 1 2 0 s
  else
    let r := fwReason s.heron.shadow img
    if r ≠ 0 then mbxDone 1 5 r s else programFlash (trimImage img) s

def fwUpdate (addr : BitVec 64) (img : List Byte) (s : State) : State :=
  mailbox 1 0 addr img.length (fwUpdateRun addr img) s

/-- Erasure, programming and read-back end; a failure leaves no valid image. -/
def flashProgramDone (ok : Bool) (s : State) : State :=
  match s.heron.flashJob with
  | none => s
  | some img =>
    let s1 := { s with heron := { s.heron with flash := if ok then img else [], flashJob := none } }
    if ok then mbxDone s.heron.mbxCmd 0 0 s1 else mbxDone s.heron.mbxCmd 5 6 s1

def recoveryLoadRun (flags : Byte) (addr : BitVec 64) (img : List Byte) (b : BootInputs) (s : State) : State :=
  if !s.heron.recovery || s.heron.stage < 5 then mbxWrong 2 s
  else if !hostRange addr.toNat img.length then mbxDone 2 2 0 s
  else
    let r := fwReason s.heron.shadow img
    if r ≠ 0 then mbxDone 2 5 r { s with heron := { s.heron with recoveryReason := r } }
    else
      let s1 := bootOn b (runImage (trimImage img) s)
      if flags.getLsbD 0 then programFlash (trimImage img) s1 else mbxDone 2 0 0 s1

def recoveryLoad (flags : Byte) (addr : BitVec 64) (img : List Byte) (b : BootInputs) (s : State) : State :=
  mailbox 2 flags.toNat addr img.length (recoveryLoadRun flags addr img b) s

/-! ### Compute reset (R31, R555, R556, R584, Table 19-11) -/

/-- Local addresses of the scratchpads and Peat, whose valid bits a compute reset clears. -/
def computeAddress (a : Nat) : Bool :=
  match regionOf a with
  | .scratchpad _ | .peat _ => true
  | _ => false

/-- Time 0: compute dies, cluster controllers, Peat and decoders are reset; what lies in Peat goes, Peat's repair queues with
it. -/
def clearCompute (s : State) : State :=
  let k := keepHeads s
  { k with
    sys := { (k.sys.clearValid computeAddress) with unfolded := [], jobFault := none, weightPoison := false, weightRanges := [], headCache := [] },
    cores := [], comp := {}, decoders := [],
    rx := { next := k.rx.next, nextHandle := k.rx.nextHandle, nextOrder := k.rx.nextOrder, rampEnd := k.rx.rampEnd },
    sessions := { k.sessions with requests := [], protectedIn := [], coldInUse := [], inFlight := [] },
    storage := { k.storage with repairQueue := mapFilter (fun c => decide (c < 16)) k.storage.repairQueue },
    heron := { k.heron with loaded := [], received := [] } }

/-- The job, if any, stops without a completion; frames held on the job side end STOPPED. -/
def stopForReset (s : State) : State :=
  let s1 := s.endFrames 8 fun _ => true
  { s1 with
    job := { s1.job with
      state := .ready, lock := false, stepNow := none, startSeq := none, batch := [], deferred := [], phase := .done,
      worked := false, replayActive := false, restartAt := none, stopQuiet := false, restartEvent := false } }

/-- Quarters that a compute reset brings back: lost at run time or by test, and passing their test now. [DESIGN CHOICE: log 39] -/
def returningQuarters (b : BootInputs) (s : State) : BitVec 4 :=
  let byFuse := (s.heron.shadow.d2dFailed.filter fun e => decide (16 < e.2.length)).foldl
    (fun (m : BitVec 4) e => m ||| (1#4 <<< quarterBeyond (e.1 / 2))) 0
  s.sys.fences.lost &&& ~~~byFuse &&& ~~~b.quarterFail

/-- Is an LPDDR6 channel fenced at run time? -/
def runTimeFenced (f : Fences) (n : Nat) : Bool := natAt f.channel n == 3

/-- Fences but those of the fuses are lifted for the test (R31); a quarter that returns was gated, so its LPDDR6 and contexts start
empty and its channels train again. [DEDUCED: log 277; DESIGN CHOICE: log 39] -/
def liftFences (b : BootInputs) (s : State) : State :=
  let back := returningQuarters b s
  let inBack (a : Nat) : Bool :=
    match regionOf a with
    | .lpddr n => back.getLsbD (n / 4)
    | .context k => back.getLsbD (k / 640 / 16)
    | _ => false
  let keep (m : SMap Nat) : SMap Nat := m.filter fun e => e.2 == 1
  let f := s.sys.fences
  let y := s.sys.clearValid inBack
  let s1 := { s with
    sys := { y with
      fences := { f with
        core := keep f.core, decoder := keep f.decoder, peat := keep f.peat, slice := keep f.slice,
        channel := f.channel.filter (fun e => e.2 != 3 && !back.getLsbD (e.1 / 4)), lost := f.lost &&& ~~~back,
        countedLost := f.countedLost ||| BitVec.ofNat 4 s.sys.lostMask } } }
  trainChannels ((List.range 16).filter fun n => back.getLsbD (n / 4) || runTimeFenced f n) b.untrained s1

/-- Is the staged image intact: no poison, and its digest the one that was signed? [DEDUCED: log 41] -/
def imageIntact (s : State) : Bool :=
  s.image.present && !s.sys.poisoned (stagingBase s.image.half) s.image.length && imageDigest s == s.image.digest

/-- COMPUTE_RESET from beginning to end. [DEDUCED: log 41; DESIGN CHOICE: log 39] -/
def computeResetRun (flags : Byte) (b : BootInputs) (s : State) : State :=
  match s.job.state with
  | .noImage | .starting => mbxWrong 3 s
  | _ =>
    let s1 := liftFences b (clearCompute (stopForReset s))
    let s2 := broadcast b (bist b ((applyRepair s1).onSys (testFences b (runTimeFenced s.sys.fences))))
    let y := { s2.sys with fences := { s2.sys.fences with released := BitVec.allOnes 4 &&& ~~~s2.sys.fences.lost } }
    let s3 := { s2 with sys := y }
    let s4 := if imageIntact s3 then restartWatches s3
      else
        { s3 with
          image := { s3.image with present := false },
          job := { s3.job with state := .noImage },
          sys := s3.sys.event Cls.IMAGE_REJECT [(2, 1, 3), (4, 4, s3.image.imageId)] }
    let s5 := mbxDone 3 0 0 s4
    if flags.getLsbD 0 && s5.job.state == .ready then startJob none s5.job.schedule s5 else drainIdle s5

def computeReset (flags : Byte) (b : BootInputs) (s : State) : State :=
  mailbox 3 flags.toNat 0 0 (computeResetRun flags b) s

/-! ### Keys (R552) -/

/-- Is the change authorised: with an empty store nothing is needed, else a signature by the installed key of SIGNER_SLOT? -/
def keyAuthorised (s : State) (block : List Byte) : Bool :=
  if s.heron.keys.isEmpty then true
  else
    match s.heron.keys.find? fun e => e.1 == fieldAt block 8 1 with
    | some e =>
      let signed := (List.range 0x7B0).map fun i => block.getD i 0
      let digest := Config.shake256 (signed ++ natToBytes 16 s.heron.shadow.serial.toNat)
      Config.mlDsaVerify e.2 (natToBytes 64 digest.toNat) ((block.drop 0x7B0).take 3309)
    | none => false

/-- KEY_INSTALL (0x04) and KEY_REMOVE (0x05). [DEDUCED: log 44] -/
def keyRun (install : Bool) (addr : BitVec 64) (block : List Byte) (s : State) : State :=
  let cmd := if install then 4 else 5
  let slot := fieldAt block 0 1
  let key := (List.range 1952).map fun i => block.getD (16 + i) 0
  if s.heron.recovery then mbxWrong cmd s
  else if !hostRange addr.toNat 0x149D || decide (3 < slot) || fieldAt block 1 3 ≠ 0 || fieldAt block 9 7 ≠ 0
      || (!install && key.any fun v => v != 0) then mbxDone cmd 2 0 s
  else if fieldAt block 4 4 ≠ s.heron.keyEpoch.toNat || !keyAuthorised s block then mbxDone cmd 5 5 s
  else
    let keys := if install then mapSet (fun _ => []) slot key s.heron.keys else mapFilter (fun k => k != slot) s.heron.keys
    mbxDone cmd 0 0 { s with heron := { s.heron with keys := keys, keyEpoch := s.heron.keyEpoch + 1 } }

def keyInstall (addr : BitVec 64) (block : List Byte) (s : State) : State := mailbox 4 0 addr block.length (keyRun true addr block) s
/-- See the log. [DEDUCED: log 44] -/
def keyRemove (addr : BitVec 64) (block : List Byte) (s : State) : State := mailbox 5 0 addr block.length (keyRun false addr block) s

/-! ### Attestation and identity (R553, R554) -/

/-- Job state, coded as in DB_STATUS. -/
def JobState.code : JobState → Nat
  | .noImage => 0
  | .ready => 1
  | .starting => 2
  | .running => 3
  | .stopping => 4
  | .faulted => 5

/-- The report of Table 19-10 without its signature. [UNVERIFIED: log 15] -/
def attestBody (nonce : List Byte) (s : State) : List Byte :=
  let img := s.image.present
  natToBytes 2 1 ++ natToBytes 2 0 ++ natToBytes 4 s.heron.fwVersion.toNat ++ natToBytes 8 s.sys.now
    ++ ((List.range 32).map fun i => nonce.getD i 0) ++ natToBytes 64 s.heron.fwDigest.toNat
    ++ natToBytes 64 (if img then s.image.digest.toNat else 0)
    ++ natToBytes 64 (Config.shake256 (Config.fuseArrayBytes s.heron.fuses)).toNat
    ++ natToBytes 4 (if img then s.image.imageId else 0) ++ natToBytes 1 s.job.state.code ++ natToBytes 11 0
    ++ natToBytes 16 s.heron.shadow.serial.toNat ++ natToBytes 16 0

/-- The signature block of R117, 4,096 bytes. -/
def signatureBlock (sig : List Byte) : List Byte :=
  natToBytes 2 1 ++ natToBytes 2 3309 ++ natToBytes 12 0 ++ ((List.range 3309).map fun i => sig.getD i 0) ++ natToBytes 771 0

def attestRun (addr : BitVec 64) (nonce : List Byte) (resp : BitVec 64) (s : State) : State :=
  if s.heron.recovery then mbxWrong 6 s
  else if !hostRange addr.toNat 40 || !hostRange resp.toNat (0x120 + 4096) then mbxDone 6 2 0 s
  else
    let body := attestBody nonce s
    let digest := Config.shake256 body
    mbxDone 6 0 0 (mbxRespond resp (body ++ signatureBlock (Config.identitySign s.heron.identityKey (natToBytes 64 digest.toNat))) s)

def attest (addr : BitVec 64) (nonce : List Byte) (resp : BitVec 64) (s : State) : State :=
  mailbox 6 0 addr 40 (attestRun addr nonce resp) s

def identityRun (addr resp : BitVec 64) (s : State) : State :=
  let out := s.heron.identityKey ++ s.heron.identityCert
  if !hostRange addr.toNat 8 || !hostRange resp.toNat out.length then mbxDone 7 2 0 s
  else mbxDone 7 0 0 (mbxRespond resp out s)

def identityRead (addr resp : BitVec 64) (s : State) : State := mailbox 7 0 addr 8 (identityRun addr resp) s

/-! ### GO by a plain register write -/

/-- A write of HERON_MBX_GO: ignored and counted while BUSY, but for COMPUTE_RESET beside flash programming (R564); a CMD that Table 19-8
does not list is INVALID; a listed one is started, and its row is Heron running it. [DESIGN CHOICE: log 267] -/
def mbxGo (v : Nat) (s : State) : State :=
  if !v.testBit 0 then s
  else
    let cmd := s.sys.regField mbxCmdOff 0 8
    if s.heron.mbxBusy && !(cmd == 3 && s.heron.flashJob.isSome && s.heron.mbxStarted == 0) then s.onSys fun y => y.count Cls.MBX_BUSY
    else if 1 ≤ cmd ∧ cmd ≤ 7 then
      { s with
        heron := { s.heron with mbxStarted := cmd, mbxCmd := if s.heron.mbxBusy then s.heron.mbxCmd else cmd, mbxBusy := true } }
    else mbxDone cmd 2 0 s

end Sys2Proof.Machine
end

