-- ==== Sys2Proof/Machine/Reactions.lean ====
section
/-! DEFINITION. Module stop and the reactions that lead to it, fences, lost quarters, rails, power and thermal control, the
compare of triplicated words, die-to-die lanes, refresh, the PCIe link and JTAG (R30, R343, R460, R495, R496, R529 to R535,
R540, R542, R557 to R562, R582, R604, R608, R609, R613). -/

namespace Sys2Proof.Machine

/-! ### Module stop (R533, R534, R537) -/

/-- The job in module stop: compute is held in reset, no completion is written. [DEDUCED: log 175] -/
def stopCompute (s : State) : State :=
  let c := clearCompute s
  let dead := c.job.active || c.job.state == .starting
  { c with
    downlink := {},
    job := { c.job with
      state := if dead then .faulted else c.job.state,
      startSeq := none, stepNow := none, worked := false, batch := [], deferred := [], replayActive := false, restartEvent := false,
      queue := [], cfgQueue := [] } }

/-- The stop line: the source latches its code, the Causeway closes, compute and Heron are held in reset, MASTER_EN reads off,
every ring is disabled, FAULT_N asserts. [DEDUCED: log 174, 175; DESIGN CHOICE: log 148] -/
def moduleStop (cause : Nat) (s : State) : State :=
  if s.heron.moduleStop then s
  else
    let s1 : State := { s with
      heron := { s.heron with moduleStop := true, stopCause := if s.heron.stopCause = 0 then cause else s.heron.stopCause } }
    let s2 := assertFault (enforceMute s1)
    (stopCompute (closeCauseway s2)).onSys disableRings

/-- A cause that Heron survives long enough to send its final PAIR_HB with FAULT (R484). [DEDUCED: log 175, 176] -/
def stopWithHeartbeat (cause : Nat) (s : State) : State :=
  moduleStop cause (sendHeartbeat { s with net := { s.net with faulted := true, role := if s.net.role = 2 then 1 else s.net.role } })

/-- HERON_LOCKSTEP. -/
def heronLockstep (s : State) : State := moduleStop 1 (s.onSys fun y => y.fault Cls.HERON_LOCKSTEP UnitCode.heron 0 0 0)

/-- HERON_ECC. -/
def heronEcc (s : State) : State := moduleStop 2 (s.onSys fun y => y.fault Cls.HERON_ECC UnitCode.heron 0 0 0)

/-- SYSCLK_LOST: the time unit loses its clock and clears (ch. 13). [DEDUCED: log 144] -/
def sysclkLost (s : State) : State :=
  let s1 := moduleStop 3 (s.onSys fun y => y.fault Cls.SYSCLK_LOST UnitCode.timeUnit 0 0 0)
  { s1 with time := {}, sys := { s1.sys with air := 0 } }

/-- THERM_TRIP: THERM_TRIP_N turns the VDD_C regulators off; MAIN_EN stays high; then module stop. [DEDUCED: log 176] -/
def thermTrip (s : State) : State :=
  let s1 : State := { s with pins := { s.pins with thermTripN := false }, power := { s.power with mainGood := false } }
  if s.up then stopWithHeartbeat 6 (s1.onSys fun y => y.fault Cls.THERM_TRIP UnitCode.quarterSupervisor 0 0 0) else s1

/-- MODULE_STOP as a row: the stop line driven by one of its six sources. [DEDUCED: log 174] -/
def stopLine (cause : Nat) (s : State) : State := if 1 ≤ cause ∧ cause ≤ 6 then moduleStop cause s else s

/-! ### Quarters, rails, fences (R30, R460, R532, R542, R604) -/

/-- QUARTER_LOST: base die 0 stops the module; another quarter is fenced, the job faults, its lanes go. [DEDUCED: log 177] -/
def loseQuarter (q : Nat) (s : State) : State :=
  if 4 ≤ q || s.sys.quarterGone q then s
  else
    let f (t : State) : State := t.onSys fun y => y.fault Cls.QUARTER_LOST UnitCode.quarterSupervisor 0 0 q
    if q = 0 then moduleStop 4 (f s) else quarterLanesLost q (f (s.onSys (markLost q)))

/-- RAIL_ALARM: rails 0–3 VDD_C, 4 VDD_B, 5 VDD_M1, 6 VDD_M2, 7 VDD_IO, 8 VDD_SD, 9 VDD_SDH. [DEDUCED: log 177] -/
def railAlarm (rail : Nat) (ports : BitVec 6) (queued : List Nat) (s : State) : State :=
  if rail ≤ 3 then loseQuarter rail s
  else if rail ≤ 7 then loseQuarter 0 s
  else if rail ≤ 9 then
    (List.range 6).foldl (fun a p => if ports.getLsbD p then linkLoss p (queued.getD p 0) a else a) s
  else s

/-- A run-time decoder fence; a quarter left with no working decoder counts as lost (R178), which the job meets as QUARTER_LOST. -/
def decoderFence (g : Nat) (s : State) : State :=
  let t := fenceDecoder g s
  if !s.sys.decoderFenced g && (t.sys.decoderFor g).isNone then
    t.onSys fun y => y.fault Cls.QUARTER_LOST UnitCode.quarterSupervisor 0 0 (g / 16)
  else t

/-- The fault that fences a core (Table 18-5), and the unit that detects it. [DEDUCED: log 252] -/
def fenceCause (cause : FenceCause) : Nat × Nat :=
  match cause with
  | .cmdEcc => (Cls.CMD_ECC, UnitCode.sequencer)
  | .suEcc => (Cls.SU_ECC, UnitCode.signalUnit)
  | .arrayParity => (Cls.ARRAY_PARITY, UnitCode.array)

/-- A fence of a unit whose fault class the manual does not name: in force, and kept in Heron's fault log (R31). [DEDUCED: log 252] -/
def fenceUnit (unit idx : Nat) (fences : Fences) (y : Sys) : Sys :=
  { y with fences := fences }.log (faultRecord Cls.CHECKER_FAIL unit 0 0 (y.airCopy 0) idx)

/-- FENCE of a core, decoder, Peat, context slice or LPDDR6 channel by its controlling unit (R30): the fault that
led to it is on record (R31), and that of a core faults the job (R33). [DEDUCED: log 252] -/
def fence (kind : FencedUnit) (idx : Nat) (s : State) : State :=
  let f := s.sys.fences
  match kind with
  | .core cause =>
    if idx < 1024 then
      (s.fenceCoreNow idx).onSys fun y => y.fault (fenceCause cause).1 (fenceCause cause).2 idx 0 0
    else s
  | .decoder => if idx < 64 then decoderFence idx s else s
  | .peat => if idx < 64 then s.onSys (fenceUnit UnitCode.peat idx { f with peat := putFence f.peat idx 3 }) else s
  | .slice => if idx < 64 then s.onSys (fenceUnit UnitCode.contextSlice idx { f with slice := putFence f.slice idx 3 }) else s
  | .channel => if idx < 16 then s.onSys (fenceUnit UnitCode.lpddr6 idx { f with channel := putFence f.channel idx 3 }) else s

/-- Power domains gated (Table 19-12). [DESIGN CHOICE: log 202] -/
def Sys.computeGated (y : Sys) (g : Nat) : Bool := y.clusterLost g || y.quarterGone (g / 16)
/-- See the log. [DESIGN CHOICE: log 202] -/
def Sys.poolGated (y : Sys) (g : Nat) : Bool := y.peatFenced g
/-- See the log. [DESIGN CHOICE: log 202] -/
def State.laneGated (s : State) (l : Nat) : Bool :=
  s.heron.shadow.serdesBad.getLsbD l || (decide (4 ≤ l) && !s.ringSerdes)
    || (s.sys.capped && (List.range 6).any fun p => (portLanes s.sys.portMode p).contains l && !(s.net.port p).up)

/-! ### Die-to-die lanes (R542) -/

/-- Spares of a link's direction that are left. [DEDUCED: log 185] -/
def State.sparesLeft (s : State) (link dir : Nat) : Nat :=
  16 - (mapGet (fun _ => []) (2 * link + dir) s.heron.shadow.d2dFailed).length - natAt s.heron.spares (2 * link + dir)

/-- Corrected symbol errors of a lane within 1 s; 64 or more move it to a spare, and with none left the quarter beyond the link
is lost. [DEDUCED: log 185] -/
def laneSpared (link dir lane errors : Nat) (s : State) : State :=
  if 4 ≤ link ∨ 2 ≤ dir then s
  else
    let s1 := s.onSys fun y => y.countN Cls.CE_NOC errors
    if errors < 64 then s1
    else
      let left := s.sparesLeft link dir
      if left = 0 then loseQuarter (quarterBeyond link) s1
      else
        let s2 : State := { s1 with
          heron := { s1.heron with spares := natPut s1.heron.spares (2 * link + dir) (natAt s1.heron.spares (2 * link + dir) + 1) } }
        s2.onSys fun y => y.event Cls.LANE_SPARED [(2, 1, link), (3, 1, dir), (4, 2, lane), (6, 1, left - 1)]

/-- One of a channel's refreshes begins (R343). [DEDUCED: log 186] -/
def refresh (ch : Nat) (s : State) : State :=
  if ch < 16 then
    { s with storage := { s.storage with refreshUntil := natPut s.storage.refreshUntil ch (s.sys.now + 280) } }
  else s

/-! ### Triplicated words (R495, R496, Table 17-2) -/

/-- Bits of a register that are fields. -/
def fieldMask (off : Nat) : Nat :=
  match findReg off with
  | some (_, _, fs) => fs.foldl (fun m f => m + (2 ^ f.len - 1) * 2 ^ f.lo) 0
  | none => 0

/-- Classes of triplicated registers: 1 safety configuration, 2 time increment, 3 Sluice words; 0 not triplicated. [DEDUCED: log 180] -/
def tmrClass (off : Nat) : Nat :=
  if off = 0x050010 ∨ off = 0x050014 ∨ off = 0x090020 then 1
  else if off = incrOff then 2
  else if off = 0x060000 ∨ (0x060100 ≤ off ∧ off < 0x060200 ∧ off % 8 = 0) then 3
  else 0

/-- Differences of the copies after an upset of each; `bad` copies no longer read. -/
def TmrWord.hit (w : TmrWord) (a b c : Nat) (bad : BitVec 3) : TmrWord :=
  { xorB := Nat.xor w.xorB (Nat.xor a b), xorC := Nat.xor w.xorC (Nat.xor a c), bad := w.bad ||| bad }

/-- Flip bits of the fuse shadows: bad-core map from bit 0, bad-decoder map from bit 1024, lane map from bit 1088,
bad-column map from bit 1096 on, 6 bits a core. [DESIGN CHOICE: log 179] -/
def flipShadow (m : Nat) (f : FuseArray) : FuseArray :=
  let cols := (List.range 1024).foldl (fun (a : SMap (BitVec 6)) c =>
    let x := bitsOf m (1096 + 6 * c) 6
    if x = 0 then a else mapSet (fun _ => (0 : BitVec 6)) c (mapGet (fun _ => (0 : BitVec 6)) c a ^^^ BitVec.ofNat 6 x) a) f.badColumn
  { f with
    badCore := f.badCore ^^^ BitVec.ofNat 1024 m,
    badDecoder := f.badDecoder ^^^ BitVec.ofNat 64 (bitsOf m 1024 64),
    serdesBad := f.serdesBad ^^^ BitVec.ofNat 8 (bitsOf m 1088 8),
    badColumn := if bitsOf m 1096 6144 = 0 then f.badColumn else cols }

/-- TMR_FAIL: on the fuse shadows a job in progress faults. [DEDUCED: log 178] -/
def tmrFail (faultsJob : Bool) (off : Nat) (s : State) : State :=
  s.onSys fun y => y.faultWith faultsJob Cls.TMR_FAIL UnitCode.heron 0 0 off

/-- The shadows meet an upset; with no majority all three copies are loaded again from the fuses. [DEDUCED: log 178] -/
def upsetShadow (a b c : Nat) (bad : BitVec 3) (s : State) : State :=
  let h := s.heron
  let w := h.shadowTmr.hit a b c bad
  if w.noMajority then
    tmrFail (s.job.active || s.job.state == .starting) 0x020000
      { s with heron := { h with shadow := h.fuses, shadowTmr := {}, shadowReloaded := true } }
  else
    let d := Nat.xor a (Nat.xor (w.read 0) (h.shadowTmr.read 0))
    { s with heron := { h with shadow := if d = 0 then h.shadow else flipShadow d h.shadow, shadowTmr := w } }

/-- A register meets an upset; with no majority it acts as Table 17-2 states. [DEDUCED: log 178] -/
def upsetReg (off a b c : Nat) (bad : BitVec 3) (s : State) : State :=
  let m := fieldMask off
  let y := s.sys
  let old := y.reg off
  let w := (y.tmrWord off).hit (Nat.land a m) (Nat.land b m) (Nat.land c m) bad
  let v := Nat.xor (y.regStored off) (Nat.land a m)
  let hit : State := { s with
    sys := { y with regs := { y.regs with val := mapSet regReset off v y.regs.val, tmr := mapSet tmrDefault off w y.regs.tmr } } }
  match tmrClass off with
  | 0 => s
  | 1 => if w.noMajority then moduleStop 5 (tmrFail false off (s.onSys fun z => z.setReg off old)) else hit
  | 2 => if w.noMajority then tmrFail false off (s.onSys fun z => z.setReg off old) else hit
  | _ =>
    if w.noMajority then
      enforceMute (tmrFail false off { (s.onSys fun z => z.setReg off old) with sluice := { s.sluice with masterOff := true } })
    else enforceMute hit

/-- One upset of a triplicated word: the shadows, or the register at an offset. [DEDUCED: log 178] -/
def upset (u : TmrUpset) (s : State) : State :=
  if u.shadow then upsetShadow u.flipA u.flipB u.flipC u.bad s else upsetReg u.off.toNat u.flipA u.flipB u.flipC u.bad s

/-- Heron rewrites every word whose copies differ from the majority, counting each. -/
def rewriteCopies (s : State) : State :=
  let s1 := s.sys.regs.tmr.foldl (fun (a : State) e =>
    a.onSys fun y => (y.setReg e.1 (y.reg e.1)).count Cls.TMR_CORRECT) s
  if s1.heron.shadowTmr = {} then s1
  else { s1 with heron := { s1.heron with shadowTmr := {} }, sys := s1.sys.count Cls.TMR_CORRECT }

/-- TMR_COMPARE: the compare of the words as they stand, then the upsets of the millisecond that follows. [DEDUCED: log 178] -/
def tmrCompare (us : List TmrUpset) (s : State) : State := us.foldl (fun a u => if a.up then upset u a else a) (rewriteCopies s)

/-! ### Power cap and throttle (R558, R560) -/

/-- Caps of PWR_CAP.LEVEL in 1/8 W. -/
def capOf (level : Nat) : Nat :=
  match level with
  | 0 => 2080
  | 1 => 1680
  | 2 => 1280
  | _ => 880

def State.powerCap (s : State) : Nat := capOf (s.sys.regField 0x090000 0 2)

/-- One comparison of the estimate with the cap. [DEDUCED: log 181] -/
def capControl (estimate : Nat) (s : State) : State :=
  let p := s.power
  let above := decide (s.powerCap < estimate)
  let removal := if above then min 56 (p.capRemoval + 1)
    else if estimate * 100 < s.powerCap * 95 then p.capRemoval - 1 else p.capRemoval
  let since := if above && removal = 56 then p.exceededSince <|> some s.sys.now else none
  let unmet := match since with
    | some t => decide (t + 100000000 ≤ s.sys.now)
    | none => false
  let s1 : State := { s with
    power := { p with estimate := estimate, capRemoval := removal, exceededSince := since, capUnmet := unmet } }
  if unmet && !p.capUnmet then
    s1.onSys fun y => y.event Cls.PWR_CAP_UNMET [(2, 1, y.regField 0x090000 0 2), (4, 2, estimate)]
  else s1

/-- Removal in force in a quarter, in 1/64. -/
def State.removal (s : State) (q : Nat) : Nat := max s.power.capRemoval (natAt s.power.thermRemoval q)

/-! ### Thermal throttle (R561) -/

def noReading (_ : Nat) : Int := 0

/-- Index of reading `i` of a quarter: 16 cluster sensors, then 4 of the base die. [DEDUCED: log 183] -/
def sensorIndex (q i : Nat) : Nat := if i < 16 then 16 * q + i else 64 + 4 * q + (i - 16)

/-- Hottest of (sensor, reading) pairs, the first of equals. [DEDUCED: log 183] -/
def hottest : List (Nat × Int) → Nat × Int
  | [] => (0, 0)
  | e :: l => l.foldl (fun a x => if a.2 < x.2 then x else a) e

/-- THERM_THROTTLE at the beginning and the end of throttle. [DEDUCED: log 182] -/
def throttleEvent (q : Nat) (begins : Bool) (hot : Nat × Int) (s : State) : State :=
  s.onSys fun y => y.event Cls.THERM_THROTTLE [(2, 1, q), (3, 1, begins.toNat), (4, 1, ofSigned 8 (satSigned 8 hot.2)), (5, 1, hot.1)]

/-- One reading of a quarter's 20 sensors. [DEDUCED: log 182] -/
def thermalRead (q : Nat) (readings : List Int) (s : State) : State :=
  if 4 ≤ q || s.sys.quarterGone q || readings.length != 20 || decide (s.heron.stage < 4) then s
  else
    let p := s.power
    let on : Int := s.sys.regField 0x090020 0 8
    let pairs := (List.range 20).map fun i => (sensorIndex q i, readings.getD i 0)
    let hot := hottest pairs
    let cold := readings.all fun r => decide (r < on - 3)
    let old := natAt p.thermRemoval q
    let since := natAt p.thermSince q
    let now := s.sys.now
    let new := if on ≤ hot.2 then (if old = 0 ∨ since + 100000 ≤ now then min 56 (old + 8) else old)
      else if cold && decide (0 < old) && decide (since + 1000000 ≤ now) then old - 1 else old
    let s1 : State := { s with
      power := { p with
        reading := pairs.foldl (fun m e => mapSet noReading e.1 e.2 m) p.reading,
        thermRemoval := natPut p.thermRemoval q new,
        thermSince := if new = old then p.thermSince else natPut p.thermSince q now } }
    if old = 0 ∧ new ≠ 0 then throttleEvent q true hot s1
    else if old ≠ 0 ∧ new = 0 then throttleEvent q false hot s1
    else s1

/-! ### VDD_C targets (R562, R604, R608) -/

def vddcDefault (_ : Nat) : Nat := 750
/-- See the log. [DEDUCED: log 184] -/
def State.vddcTarget (s : State) (q : Nat) : Nat := mapGet vddcDefault q s.power.vddc

/-- A supervisor moves its target one step of 5 mV up or down. [DEDUCED: log 184] -/
def vddcStep (q : Nat) (up : Bool) (s : State) : State :=
  let v := s.vddcTarget q
  let new := if up then v + 5 else v - 5
  let early := s.power.vddcSince.any fun e => e.1 == q && decide (s.sys.now < e.2 + 100000)
  if 4 ≤ q || s.sys.quarterGone q || decide (new < 650) || decide (800 < new) || early then s
  else
    { s with
      power := { s.power with
        vddc := mapSet vddcDefault q new s.power.vddc, vddcChanged := true,
        vddcSince := mapSet (fun _ => 0) q s.sys.now s.power.vddcSince },
      pins := { s.pins with smbAlertN := false } }

/-- VDDC_CHANGED written with 1 over SMBus. -/
def vddcClear (s : State) : State :=
  { s with power := { s.power with vddcChanged := false }, pins := { s.pins with smbAlertN := true } }

/-! ### MOD_HEARTBEAT, the PCIe link -/

/-- One millisecond of Heron, in which its RAM has corrected some errors. -/
def heartbeat (corrected : Nat) (s : State) : State :=
  { s with heron := { s.heron with heartbeat := s.heron.heartbeat + 1 }, sys := s.sys.countN Cls.CE_HERON corrected }

/-- The link trains after PERST_N is released, once the endpoint is ready (R540). [DEDUCED: log 187] -/
def pcieTrained (gen width : Nat) (s : State) : State :=
  if !s.pins.perstN || decide (s.heron.stage < 3) then s
  else
    let s1 : State := { s with heron := { s.heron with pcieUp := true, pcieGen := gen, pcieWidth := width } }
    if gen < 4 ∨ width < 8 then s1.onSys fun y => y.event Cls.PCIE_DEGRADED [(2, 1, gen), (3, 1, width)] else s1

/-! ### JTAG (R609) -/

/-- Leave the instruction selected; leaving EXTEST releases the module from full reset. [DEDUCED: log 189] -/
def selectJtag (i : JtagInstr) (b : BootInputs) (s : State) : State :=
  let was := s.jtag.instr
  let s1 : State := { s with jtag := { s.jtag with instr := some i } }
  if was == some .extest && i != .extest && s.heron.powered then startUp b s1 else s1

def sendTdo (bits : List Bool) (s : State) : State := s.onSys fun y => { y with sent := y.sent ++ [.tdo bits] }

/-- BYPASS: bits shift through the one-bit register, which captures 0. [PRESUMED: log 188] -/
def jtagBypass (bits : List Bool) (b : BootInputs) (s : State) : State :=
  let s1 := sendTdo ((false :: bits).dropLast) (selectJtag .bypass b s)
  { s1 with jtag := { s1.jtag with bypass := bits.getLast?.getD false } }

/-- SAMPLE/PRELOAD: the levels at the pins are captured and shifted out while a new chain is shifted in. [PRESUMED: log 188] -/
def jtagSample (levels shift : List Bool) (b : BootInputs) (s : State) : State :=
  let s1 := sendTdo levels (selectJtag .samplePreload b s)
  { s1 with jtag := { s1.jtag with captured := levels, latched := shift } }

/-- EXTEST: the chain drives the pins and the module is held in full reset. [DEDUCED: log 189; PRESUMED: log 188] -/
def jtagExtest (levels shift : List Bool) (s : State) : State :=
  let s1 := sendTdo levels { s with jtag := { s.jtag with instr := some .extest, captured := levels, latched := shift } }
  if s.heron.powered then holdReset s1 else s1

/-- IDCODE: stepping, 0x6400, manufacturer code, 1. -/
def idcode (s : State) : BitVec 32 :=
  s.heron.fuses.stepping.setWidth 4 ++ (0x6400#16) ++ Config.jedecCode ++ (1#1)

def jtagIdcode (b : BootInputs) (s : State) : State :=
  let s1 := selectJtag .idcode b s
  sendTdo ((List.range 32).map fun i => (idcode s1).getLsbD i) s1

end Sys2Proof.Machine
end

