-- ==== Sys2Proof/Machine/Scrub.lean ====
section
/-! DEFINITION. Scrubbing of LPDDR6, Peat and the unit memories, and write-backs of repair queues (R494, R502, R505 to R508,
R513). -/

namespace Sys2Proof.Machine

/-- Positions of a pass: granules of a 2 GiB channel, 64-byte lines of a 1 MiB macro. -/
def scrubLength (key : Nat) : Nat := if key < 16 then 67108864 else 16384

/-- Local address of a position (R21, R22, R341). -/
def scrubAddr (key i : Nat) : Nat :=
  if key < 16 then key / 4 * 2 ^ 33 + i / 128 * 2 ^ 14 + key % 4 * 2 ^ 12 + i % 128 * 32
  else peatBase ((key - 16) / 16) + i * 1024 + key % 16 * 64

/-- Pace of a storage and the limit of a pass, in ns of air time. [DEDUCED: log 192] -/
def scrubPace (key : Nat) : Nat := if key < 16 then 1000000 else 200000000
/-- See the log. [DEDUCED: log 192] -/
def scrubLimit (key : Nat) : Nat := if key < 16 then 86400000000000 else 3600000000000

/-- The slot gap of R506: from a processing boundary to the close of the next slot's ingest; always, while no job is active. -/
def State.slotGap (s : State) : Bool := !s.job.active || s.job.phase == .ingest || s.job.phase == .done

/-- Do write-backs wait (R506)? -/
def State.writeBacksWait (s : State) : Bool := s.deterministic && !s.slotGap

/-- A write-back: STATE 1, the word's data as given. [DEDUCED: log 191] -/
def writeBack (a : Nat) (bs : List Byte) (poison : Bool) (y : Sys) : Sys := (y.store a bs poison).markState a bs.length 1

/-- A scrub read of one protected word that meets errors (R506, R507). [DEDUCED: log 190] -/
def scrubWord (a : Nat) (errs : ReadErrors) (s : State) : State :=
  if !s.sys.lineValid a then s
  else
    let o := decodeAt a errs
    let stored := s.sys.peekN a (protectedSize a)
    let word := wordThrough a o stored
    if o.bad then
      let unit := match regionOf a with
        | .lpddr _ => UnitCode.lpddr6
        | .peat _ => UnitCode.peat
        | _ => UnitCode.contextSlice
      s.onSys fun y => (writeBack a word true y).fault Cls.SCRUB_UE unit 0 0 a
    else if o.corrected then
      let s1 := countCorrected a s
      if s.writeBacksWait then queueRepair a stored word s1
      else s1.onSys (writeBack a word (s.sys.poisoned a 1))
    else s

/-- SCRUB_BEHIND, once a pass, when what is left of it cannot end in time. [DEDUCED: log 192] -/
def scrubBehind (key : Nat) (s : State) : State :=
  let t := s.storage
  let now := s.sys.now
  let start := if natAt t.scrubStart key = 0 then now else natAt t.scrubStart key - 1
  let left := (scrubLength key - natAt t.scrubPos key) * scrubPace key
  let t1 := { t with scrubStart := natPut t.scrubStart key (start + 1) }
  if !flagAt t.scrubLate key && decide (scrubLimit key < now - start + left) then
    let g := key - 16
    { s with
      storage := { t1 with scrubLate := flagPut t.scrubLate key true, scrubBehind := flagPut t.scrubBehind key true },
      sys := s.sys.event Cls.SCRUB_BEHIND
        (if key < 16 then [(2, 1, 0), (3, 1, key)] else [(2, 1, 1), (3, 1, g / 16), (4, 1, g % 16)]) }
  else { s with storage := t1 }

/-- The scrubber moves on; a pass that ends is counted. [DEDUCED: log 191] -/
def scrubAdvance (key : Nat) (s : State) : State :=
  let t := s.storage
  let p := natAt t.scrubPos key + 1
  if p < scrubLength key then { s with storage := { t with scrubPos := natPut t.scrubPos key p } }
  else
    { s with
      storage := { t with
        scrubPos := natPut t.scrubPos key 0, scrubPasses := natPut t.scrubPasses key (min 65535 (natAt t.scrubPasses key + 1)),
        scrubStart := natPut t.scrubStart key (s.sys.now + 1), scrubLate := flagPut t.scrubLate key false } }

/-- May the scrubber read this storage now: it is in service, no refresh blocks it, and in deterministic mode a full repair
queue does not hold it (R506, R513)? [DEDUCED: log 191] -/
def State.scrubReady (s : State) (key : Nat) : Bool :=
  let a := scrubAddr key (natAt s.storage.scrubPos key)
  (s.sys.localFault a).isNone && !s.refreshing a && !(s.writeBacksWait && decide (8 ≤ (s.storage.queue key).length))

/-- SCRUB_READ: the next granule of a channel or line of a macro, with the errors met by its words. A read that is not ready is
carried to the next slot. [DEDUCED: log 190] -/
def scrubRead (key : Nat) (first second : ReadErrors) (s : State) : State :=
  if 1040 ≤ key then s
  else
    let s0 := scrubBehind key s
    if s0.scrubReady key then
      let a := scrubAddr key (natAt s0.storage.scrubPos key)
      let s1 := scrubWord a first s0
      scrubAdvance key (if key < 16 then s1 else scrubWord (a + 32) second s1)
    else s0

/-- SCRUB_WRITEBACK: the oldest entry of a repair queue; the word is written only when it stands as it was read. [DEDUCED: log 190] -/
def scrubWriteback (key : Nat) (s : State) : State :=
  match s.storage.queue key with
  | [] => s
  | (a, stored, fixed) :: rest =>
    if s.writeBacksWait || (s.sys.localFault a).isSome || s.refreshing a then s
    else
      let s1 := { s with storage := s.storage.setQueue key rest }
      if s.sys.peekN a stored.length = stored then s1.onSys (writeBack a fixed (s.sys.poisoned a 1)) else s1

/-- UNIT_SCRUB: one 64-bit word of command memory (kind 0, core), Signal Unit program memory (1, core), the context store
(2, slot and word) or decoder weight RAM (3, cluster), with the bits it finds flipped. [DEDUCED: log 193] -/
def unitScrub (kind idx word : Nat) (flips : List Nat) (s : State) : State :=
  let o := secdedDecode flips
  match kind with
  | 0 =>
    if 1024 ≤ idx || s.sys.coreFenced idx then s
    else if o.bad then (s.fenceCoreNow idx).onSys fun y => y.fault Cls.CMD_ECC UnitCode.sequencer idx 0 word
    else if o.corrected then s.onSys fun y => y.countLocal Cls.CE_CMD 1
    else s
  | 1 =>
    if 1024 ≤ idx || s.sys.coreFenced idx then s
    else if o.bad then (s.fenceCoreNow idx).onSys fun y => y.fault Cls.SU_ECC UnitCode.signalUnit idx 0 word
    else if o.corrected then s.onSys fun y => y.countLocal Cls.CE_SU 1
    else s
  | 2 =>
    if 40960 ≤ idx || s.sys.sliceFenced (idx / 640) then s
    else scrubWord (contextBase idx + word % 32 * 8) (flips.map fun p => (p, 1)) s
  | 3 =>
    if 64 ≤ idx || s.sys.decoderFenced idx then s
    else if o.bad then s.onSys fun y => { y with weightPoison := true }
    else if o.corrected then s.onSys fun y => y.countLocal Cls.CE_DEC 1
    else s
  | _ => s

end Sys2Proof.Machine
end

