-- ==== Sys2Proof/Machine/Registers.lean ====
section
/-! DEFINITION. Accesses to BAR 0 and BAR 2: access codes, halves, read values, and what a write does (R9, R10, R435 to R437,
R577 to R583, R585, R587, R591, R592, R594, R596, Tables 13-1, 15-4, 16-7, 16-8, 18-3, 19-7, 19-13, 21-2 to 21-9). -/

namespace Sys2Proof.Machine

/-- Bits from (place, value) pairs. -/
def packed (l : List (Nat × Nat)) : Nat := l.foldl (fun a e => a + e.2 * 2 ^ e.1) 0

/-- A mask of the numbers below `n` that satisfy `p`. -/
def maskOf (n : Nat) (p : Nat → Bool) : Nat := ((List.range n).filter p).foldl (fun m i => m + 2 ^ i) 0

/-! ### Read values by block -/

/-- MOD block (Table 21-2). [DEDUCED: log 277] -/
def readMod (s : State) (x : Nat) : Nat :=
  match x with
  | 0x04 => s.heron.shadow.stepping.toNat
  | 0x08 => bitsOf s.heron.shadow.serial.toNat 0 64
  | 0x10 => bitsOf s.heron.shadow.serial.toNat 64 64
  | 0x18 => packed [(0, s.sys.workingQuarters), (4, (s.sys.fences.everLost ||| s.sys.fences.countedLost).toNat ||| s.sys.lostMask)]
  | 0x20 => s.heron.heartbeat.toNat
  | _ => s.sys.reg x

/-- HERON block (Table 19-7). -/
def readHeron (s : State) (x : Nat) : Nat :=
  match x with
  | 0x20 => packed [(0, s.heron.mbxStatus), (8, s.heron.mbxReason), (16, s.heron.mbxBusy.toNat)]
  | 0x28 => packed [(0, if s.heron.recovery then 15 else s.heron.stage), (8, s.heron.recoveryReason)]
  | 0x30 => s.heron.fwVersion.toNat
  | 0x38 => s.heron.stopCause
  | _ => s.sys.reg (0x010000 + x)

/-- FUSE_D2D of a link. -/
def readD2d (s : State) (l : Nat) : Nat :=
  let failed (dir : Nat) : Nat := (mapGet (fun _ => []) (2 * l + dir) s.heron.shadow.d2dFailed).length
  packed [(0, min 31 (failed 0)), (8, min 31 (failed 1)), (16, s.sparesLeft l 0), (24, s.sparesLeft l 1)]

/-- FUSE_CORE_STATUS byte of a core. [DEDUCED: log 198] -/
def coreStatus (s : State) (c : Nat) : Nat :=
  let fence := natAt s.sys.fences.core c
  (mapGet (fun _ => (0 : BitVec 6)) c s.heron.shadow.badColumn).toNat
    + 64 * (if fence = 0 && s.sys.quarterGone (c / 256) then 3 else fence)

/-- FUSE_CLUSTER byte of a cluster. -/
def clusterStatus (s : State) (g : Nat) : Nat :=
  packed [(0, s.sys.mappingClass g), (5, (s.sys.clusterLost g).toNat), (6, (s.sys.peatFenced g).toNat), (7, (s.sys.sliceFenced g).toNat)]

/-- Eight bytes of a byte table. -/
def bytes8 (f : Nat → Nat) (k : Nat) : Nat := packed ((List.range 8).map fun i => (8 * i, f (8 * k + i)))

/-- FUSE block (Table 21-3). -/
def readFuse (s : State) (x : Nat) : Nat :=
  if x = 0x00 then packed [(0, s.sys.goodCores), (11, s.sys.goodDecoders), (18, s.heron.shadowReloaded.toNat)]
  else if x = 0x08 then s.heron.fuses.svn
  else if x = 0x10 then s.heron.shadow.serdesBad.toNat
  else if x = 0x18 then s.heron.shadow.badDecoder.toNat
  else if x = 0x20 then maskOf 64 s.sys.decoderFenced
  else if x < 0x48 then readD2d s ((x - 0x28) / 8)
  else if x < 0x180 then bitsOf s.heron.shadow.badCore.toNat (8 * (x - 0x100)) 64
  else if x < 0x1400 then bytes8 (coreStatus s) ((x - 0x1000) / 8)
  else bytes8 (clusterStatus s) ((x - 0x1400) / 8)

/-- MEM_REPAIR of an entry. -/
def readRepair (s : State) (e : Nat) : Nat :=
  match s.storage.fieldRepair[e]? with
  | some r => packed [(0, r.unit % 1024), (10, r.peat.toNat), (11, r.bank % 16), (16, r.row % 65536), (32, r.applied.toNat),
      (33, r.noSpare.toNat), (40, min 255 r.hits)]
  | none => 0

/-- MEM block (Table 21-4). -/
def readMem (s : State) (x : Nat) : Nat :=
  let t := s.storage
  if x = 0 then packed [(0, t.trained.toNat), (16, maskOf 16 s.sys.channelFenced)]
  else if x < 0x180 then
    let n := (x - 0x100) / 8
    packed [(0, (flagAt t.scrubBehind n).toNat), (16, min 65535 (natAt t.scrubPasses n)), (32, min (2 ^ 32 - 1) (natAt t.corrected n))]
  else if x = 0x300 then packed [(0, t.fieldRepair.length % 512), (16, (t.fieldRepair.filter RepairRow.applied).length % 512)]
  else readRepair s ((x - 0x400) / 8)

/-- ETH_PORT_STATUS (Table 16-7). -/
def readPorts (s : State) : Nat :=
  packed [(0, maskOf 6 fun p => (s.net.port p).up), (8, maskOf 6 fun p => (s.net.port p).degraded), (16, s.net.laneOk.toNat)]

/-- TIME block (Table 13-1). -/
def readTime (s : State) (x : Nat) : Nat :=
  let t := s.time
  match x with
  | 0x18 => packed [(0, t.servo.code), (3, t.timeValid.toNat), (4, t.timingUnsafe.toNat), (5, t.jumpRefused.toNat),
      (6, t.ppsLost.toNat), (8, t.stepGen.toNat)]
  | 0x28 => t.nowNs.toNat
  | 0x30 => t.nowFrac.toNat
  | 0x50 => t.ppsStamp.toNat
  | 0x58 => if t.servo == .holdover then (s.sys.now - t.holdoverStart) / 1000000 % 2 ^ 32 else 0
  | 0x60 => t.theta.toNat
  | _ => s.sys.reg (0x050000 + x)

/-- GUARD_STATUS. -/
def guardStatus (s : State) : Nat :=
  packed [(0, s.sluice.muteViolation.toNat), (1, s.time.timingUnsafe.toNat), (2, s.time.stepMuteEnd.isSome.toNat),
    (3, s.sluice.muteClock.toNat), (4, s.sluice.muteSelftest.toNat), (5, (!s.masterOn).toNat), (6, s.standby.toNat),
    (7, s.sluice.preloadActive.toNat)]

/-- GUARD_DUTY_SUM of a window in use. [DEDUCED: log 147] -/
def windowSum (s : State) (n : Nat) : Nat :=
  let w := s.sys.winBins n
  let first := bitsOf w 0 13
  if w.testBit 31 then
    min (2 ^ 20 - 1) (((binsOf first (bitsOf w 16 13 + 1 - first)).map s.dutySum).foldl max 0)
  else 0

/-- GUARD block (Table 18-3). -/
def readGuard (s : State) (x : Nat) : Nat :=
  let u := s.sluice
  if x = 0 then (if u.masterOff then 0 else s.sys.reg 0x060000)
  else if x = 0x08 then guardStatus s
  else if x = 0x18 then packed [(0, u.lastChannel.toNat), (16, u.lastCheck), (20, u.lastViolation.toNat)]
  else if x = 0x20 then packed [(0, u.runs.toNat), (32, u.nextKind), (35, u.failed.toNat)]
  else if 0x200 ≤ x then windowSum s ((x - 0x200) / 4)
  else s.sys.reg (0x060000 + x)

/-- JOB block (Tables 20-4 and 21-6). -/
def readJob (s : State) (x : Nat) : Nat :=
  match x with
  | 0x08 => s.job.lock.toNat
  | 0x1C => s.job.replayPos % 2 ^ 32
  | 0x30 => packed [(0, s.job.firstSlot % 2 ^ 48), (48, s.job.qset % 4)]
  | _ => s.sys.reg (0x080000 + x)

/-- PWR block (Table 19-13). -/
def readPwr (s : State) (x : Nat) : Nat :=
  let hot := hottest s.power.reading
  match x with
  | 0x08 => packed [(0, s.power.estimate % 65536), (16, s.power.capUnmet.toNat)]
  | 0x10 => packed ((List.range 4).map fun q => (8 * q, s.removal q))
  | 0x18 => packed [(0, ofSigned 8 (satSigned 8 hot.2)), (8, hot.1)]
  | 0x28 => s.vddcTarget 0
  | 0x30 => s.vddcTarget 1
  | 0x38 => s.vddcTarget 2
  | 0x40 => s.vddcTarget 3
  | 0x48 => packed [(0, s.power.mainReq.toNat), (1, s.power.mainGood.toNat)]
  | _ => s.sys.reg (0x090000 + x)

/-- ERR block (Table 21-8). -/
def readErr (s : State) (x : Nat) : Nat :=
  let y := s.sys
  if x = 0x08 then packed [(0, y.anyFault.toNat), (16, y.logKept.length + y.logRing.length)]
  else if x = 0x10 then y.satTotal
  else if x = 0x18 then y.unfTotal
  else if 0x3000 ≤ x then natAt y.counters (0x1000 + (x - 0x3000) / 8)
  else if 0x1000 ≤ x then natAt y.counters ((x - 0x1000) / 8)
  else 0

/-- FABRIC_PAIR_STATUS: the slots since the partner's last heartbeat. [DEDUCED: log 171] -/
def pairStatus (s : State) : Nat :=
  let n := s.sys.slotOf s.sys.now
  match s.net.partnerSlot with
  | some p => packed [(0, s.net.role), (2, (decide (n ≤ p + 1)).toNat), (8, min 255 (n - p - 1))]
  | none => s.net.role

/-- FABRIC_RING_STATUS. -/
def ringStatus (s : State) : Nat :=
  packed [(0, (!s.ringPortGood 4).toNat), (1, (!s.ringPortGood 5).toNat), (8, (s.net.side 4).neighbour.getD 0 % 64),
    (16, (s.net.side 5).neighbour.getD 0 % 64), (32, s.bypassed % 2 ^ 32)]

/-- FABRIC block (Table 16-8). -/
def readFabric (s : State) (x : Nat) : Nat :=
  match x with
  | 0x20 => pairStatus s
  | 0x280 => ringStatus s
  | 0x288 => s.pins.bypassState.toNat
  | _ => s.sys.reg (0x0B0000 + x)

/-- TRACE block (Table 21-9). -/
def readTrace (s : State) (x : Nat) : Nat :=
  let t := s.sys.trace
  match x with
  | 0x10 => packed [(0, t.written % 2 ^ 32), (32, min (2 ^ 32 - 1) t.lost)]
  | 0x18 => t.head
  | _ => s.sys.reg (0x0C0000 + x)

/-- Value that a register reads as; WO fields read zero (R9), reserved ones zero (R10). -/
def readReg (s : State) (off : Nat) : Nat :=
  let x := off % 0x10000
  match off / 0x10000 with
  | 0 => readMod s x
  | 1 => readHeron s x
  | 2 => readFuse s x
  | 3 => readMem s x
  | 4 => if x = 0x08 then readPorts s else s.sys.reg off
  | 5 => readTime s x
  | 6 => readGuard s x
  | 8 => readJob s x
  | 9 => readPwr s x
  | 10 => readErr s x
  | 11 => readFabric s x
  | 12 => readTrace s x
  | _ => s.sys.reg off

/-- What an SMBus read of a command of Table 22-7 answers (R608); the table of commands has no row for it. [DESIGN CHOICE: log 201] -/
def smbRead (s : State) (cmd : Nat) : Nat :=
  match cmd with
  | 0x00 => packed [(0, (!s.pins.faultN).toNat), (1, (!s.pins.thermTripN).toNat), (2, s.pins.bypassState.toNat),
      (3, s.power.mainReq.toNat), (4, s.power.mainGood.toNat), (5, s.power.vddcChanged.toNat)]
  | 0x01 => s.vddcTarget 0
  | 0x02 => s.vddcTarget 1
  | 0x03 => s.vddcTarget 2
  | 0x04 => s.vddcTarget 3
  | 0x08 => readPwr s 0x18 % 256
  | 0x09 => readPwr s 0x08 % 65536
  | 0x0A => s.heron.stopCause
  | _ => 0

/-! ### Writes (R9, R596) -/

/-- A field's bits after a write, by its access code. -/
def fieldAfter (lock : Bool) (f : Fld) (old w : Nat) : Nat :=
  match f.acc with
  | .rw => bitsOf w f.lo f.len
  | .rwl => if lock then bitsOf old f.lo f.len else bitsOf w f.lo f.len
  | .ro | .wo => bitsOf old f.lo f.len
  | .wc => Nat.land (bitsOf old f.lo f.len) (2 ^ f.len - 1 - bitsOf w f.lo f.len)

/-- A register's stored value after a write. -/
def regAfter (lock : Bool) (fs : List Fld) (old w : Nat) : Nat :=
  fs.foldl (fun v f => putBits v f.lo f.len (fieldAfter lock f old w)) old

/-- Would a write after SETUP_LOCK change an RWL field? -/
def lockedChange (lock : Bool) (fs : List Fld) (old w : Nat) : Bool :=
  lock && fs.any fun f => f.acc == .rwl && bitsOf w f.lo f.len != bitsOf old f.lo f.len

/-- ERR_CTRL.CLEAR: counters and totals to 0; counts not yet folded in stand (R592, R596). [DEDUCED: log 22] -/
def errClear (v : Nat) (s : State) : State :=
  if v.testBit 0 then s.onSys fun y => { y with counters := [], satTotal := 0, unfTotal := 0, anyFault := false } else s

/-- A trace setting acts at once while no job runs (R594). -/
def traceSettings (s : State) : State :=
  if s.job.active then s
  else s.onSys fun y => { y with
    trace := { y.trace with ctrl := BitVec.ofNat 3 (y.reg 0x0C0000), clusters := BitVec.ofNat 64 (y.reg 0x0C0008) } }

/-- FABRIC_PAIR_CMD. -/
def pairCmd (v : Nat) (s : State) : State :=
  let s1 := if v.testBit 0 then relinquish s else s
  if v.testBit 1 then take s1 else s1

/-- TIME_STATUS: a 1 clears JUMP_REFUSED or PPS_IN_LOST. -/
def timeStatusClear (v : Nat) (s : State) : State :=
  { s with
    time := { s.time with jumpRefused := s.time.jumpRefused && !v.testBit 5, ppsLost := s.time.ppsLost && !v.testBit 6 } }

/-- SERVO_EN set again: the servo resumes with the lock count at zero (R403). -/
def servoResumes (old : Nat) (s : State) : State :=
  if s.servoOn && !old.testBit 0 then { s with time := { s.time with lockCount := 0 } } else s

/-- A new port mode takes the network ports down until their lanes have trained again. [DEDUCED: log 199] -/
def newPortMode (s : State) : State := (List.range 4).foldl (fun a p => portDown p false a) s

/-- What a write does beside setting fields; `w` is the value written, `old` the value before. -/
def afterWrite (off old w : Nat) (s : State) : State :=
  if off = 0x010018 then mbxGo w s
  else if off = 0x040000 then (if s.sys.reg off = old then s else newPortMode s)
  else if off = 0x050000 then servoResumes old s
  else if off = 0x050018 then timeStatusClear w s
  else if off = 0x050020 then timeSnap w s
  else if off = 0x050040 then forceGo w s
  else if off = 0x060010 then muteClear w s
  else if off = 0x060000 then enforceMute s
  else if off / 0x10000 = 7 ∧ off % 0x20 = 8 ∧ off < 0x070240 then (if s.job.lock then s else ringEnable ((off - 0x070000) / 0x20) s)
  else if off = 0x0A0000 then errClear w s
  else if off = 0x0B001C then pairCmd w s
  else if off = 0x0C0000 ∨ off = 0x0C0008 then traceSettings s
  else s

/-- A write of a whole register. [DEDUCED: log 200] -/
def writeReg (off : Nat) (fs : List Fld) (w : Nat) (s : State) : State :=
  let old := s.sys.reg off
  let s1 := if lockedChange s.job.lock fs old w then s.onSys fun y => y.count Cls.LOCKED_WRITE else s
  if off = incrOff then writeIncrement w s1
  else afterWrite off old w (s1.onSys fun y => y.setReg off (regAfter s.job.lock fs old w))

/-! ### Halves (R579) -/

def noHalf (_ : Nat) : Option (Nat × Nat) := none

/-- Buffered low half of a block. -/
def Sys.lowHalf (y : Sys) (block : Nat) : Option (Nat × Nat) := mapGet noHalf block y.regs.lowBuf

def Sys.setLowHalf (y : Sys) (block : Nat) (v : Option (Nat × Nat)) : Sys :=
  { y with regs := { y.regs with lowBuf := mapSet noHalf block v y.regs.lowBuf } }

/-- A 32-bit write at an aligned offset. -/
def write32 (x v : Nat) (s : State) : State :=
  match findReg x with
  | none => s
  | some (off, size, fs) =>
    let b := off / 0x10000
    let buf := s.sys.lowHalf b
    let s1 := s.onSys fun y => y.setLowHalf b none
    if size = 4 then writeReg off fs v s1
    else if x = off then s.onSys fun y => y.setLowHalf b (some (off, v))
    else
      let low := match buf with
        | some (o, l) => if o = off then l else s.sys.reg off % 2 ^ 32
        | none => s.sys.reg off % 2 ^ 32
      writeReg off fs (low + v * 2 ^ 32) s1

/-- A 64-bit write at an aligned offset. -/
def write64 (x v : Nat) (s : State) : State :=
  match findReg x with
  | some (off, 8, fs) =>
    if off = x then writeReg off fs v (s.onSys fun y => y.setLowHalf (off / 0x10000) none) else s
  | _ => write32 (x + 4) (v / 2 ^ 32) (write32 x (v % 2 ^ 32) s)

/-- A 32-bit read: its value, and the latch it leaves. [DEDUCED: log 195] -/
def read32 (x : Nat) (s : State) : Nat × State :=
  match findReg x with
  | none => (0, s)
  | some (off, size, _) =>
    let v := readReg s off
    if size = 4 then (v % 2 ^ 32, s)
    else if x = off then
      (v % 2 ^ 32, s.onSys fun y => { y with regs := { y.regs with readLatch := some (off, v / 2 ^ 32) } })
    else
      match s.sys.regs.readLatch with
      | some (o, h) =>
        if o = off then (h, s.onSys fun y => { y with regs := { y.regs with readLatch := none } }) else (v / 2 ^ 32, s)
      | none => (v / 2 ^ 32, s)

def read64 (x : Nat) (s : State) : Nat :=
  match findReg x with
  | some (off, 8, _) => if off = x then readReg s off else 0
  | _ => (read32 x s).1 + (read32 (x + 4) s).1 * 2 ^ 32

/-- An access to BAR 2 of `size` bytes (R578). [DEDUCED: log 197] -/
def bar2 (x size : Nat) (a : BarAccess) (s : State) : State :=
  if !(size == 4 || size == 8) || x % size ≠ 0 then
    let s1 := s.onSys fun y => y.count Cls.BAR_ACCESS_SIZE
    match a with
    | .read => setReadData (2 ^ (8 * size) - 1) false s1
    | .write _ => s1
  else
    match a with
    | .read => if size = 8 then setReadData (read64 x s) false s
        else let r := read32 x s
          setReadData r.1 false r.2
    | .write v => if size = 8 then write64 x v.toNat s else write32 x (v.toNat % 2 ^ 32) s

/-! ### BAR 0 (Table 15-4) -/

/-- DB_STATUS. -/
def dbStatus (s : State) : Nat :=
  packed [(0, s.job.state.code), (3, s.job.lock.toNat), (4, s.time.timingUnsafe.toNat), (5, (!s.pins.faultN).toNat),
    (6, (!s.job.lock).toNat)]

/-- DB_POS of a ring. -/
def dbPos (h : HostRing) : Nat := packed [(0, h.modPos % 65536), (16, h.phase.toNat), (17, h.stopped.toNat)]

/-- A 32-bit word of BAR 0. [DEDUCED: log 196] -/
def readBar0 (s : State) (x : Nat) : Nat :=
  if 0x100 ≤ x ∧ x < 0x190 ∧ x % 8 = 0 then dbPos (s.sys.ring ((x - 0x100) / 8))
  else if x = 0x200 then dbStatus s
  else if x = 0x208 then s.job.lastSlot % 2 ^ 32
  else if x = 0x20C then bitsOf s.job.lastSlot 32 16
  else if x = 0x210 then s.sys.heldCount
  else if 0x1000 ≤ x ∧ x < 0x1400 then (mapGet (fun _ => (0 : BitVec 32)) ((x - 0x1000) / 4) s.sys.msixTable).toNat
  else if x = 0x1800 then s.sys.msixPending.toNat % 2 ^ 32
  else if x = 0x1804 then s.sys.msixPending.toNat / 2 ^ 32
  else 0

/-- See the log. [DEDUCED: log 196] -/
def writeBar0 (x v : Nat) (s : State) : State :=
  if x < 0x90 ∧ x % 8 = 0 then doorbell (x / 8) (v % 65536) s
  else if 0x1000 ≤ x ∧ x < 0x1400 then msixWrite ((x - 0x1000) / 4) v s
  else s

/-- An access to BAR 0 of 32 or 64 bits; in module stop reads alone are answered (R533). [DEDUCED: log 196] -/
def bar0 (x size : Nat) (a : BarAccess) (s : State) : State :=
  if !(size == 4 || size == 8) || x % size ≠ 0 then
    match a with
    | .read => setReadData (2 ^ (8 * size) - 1) false s
    | .write _ => s
  else
    match a with
    | .read => setReadData (readBar0 s x + (if size = 8 then readBar0 s (x + 4) * 2 ^ 32 else 0)) false s
    | .write v =>
      if s.heron.moduleStop then s
      else
        let s1 := writeBar0 x (v.toNat % 2 ^ 32) s
        if size = 8 then writeBar0 (x + 4) (v.toNat / 2 ^ 32) s1 else s1

end Sys2Proof.Machine
end

