-- ==== Sys2Proof/Machine/Gates.lean ====
section
/-! DEFINITION. When the module takes a command: powered and out of reset and module stop, over PCIe, or over PCIe with the runtime
up (R540, R545); and the rows that are writes of one register or of one ring's set-up. -/

namespace Sys2Proof.Machine

/-- The module runs: it has supply, is out of reset and not in module stop (R533, R540). [DEDUCED: log 3, 12; DESIGN CHOICE: log 5] -/
def whenUp (f : State → State) (s : State) : State := if s.up then f s else s

/-- The host reaches it over PCIe (R545). [DEDUCED: log 3, 12] -/
def whenHost (f : State → State) (s : State) : State := if s.up && s.heron.pcieUp then f s else s

/-- Its runtime accepts jobs: step 8 of the power-on order has passed (R545). [DEDUCED: log 3, 12] -/
def whenReady (f : State → State) (s : State) : State := if s.up && s.heron.pcieUp && decide (8 ≤ s.heron.stage) then f s else s

/-- It has supply. [DEDUCED: log 3, 12] -/
def whenPowered (f : State → State) (s : State) : State := if s.heron.powered then f s else s

/-- A 32-bit write of BAR 2. -/
def writeWord (off : Nat) (v : BitVec 32) (s : State) : State := bar2 off 4 (.write (v.setWidth 64)) s

/-- HOSTQ_CFG of a ring (R415). [DEDUCED: log 200] -/
def ringConfig (r : Nat) (cfg : BitVec 32) (s : State) : State := if r < 18 then writeWord (hostqOff r + 8) cfg s else s

/-- TRACE_CTRL, or TRACE_CLUSTERS (R582). -/
def traceWrite (clusters : Bool) (v : BitVec 64) (s : State) : State :=
  if clusters then bar2 0x0C0008 8 (.write v) s else writeWord 0x0C0000 (v.setWidth 32) s

/-- A register access: BAR 0 answers reads in module stop (R533), BAR 2 answers only while the module runs. [DEDUCED: log 12, 197] -/
def registerAccess (isBar0 : Bool) (x size : Nat) (a : BarAccess) (s : State) : State :=
  if isBar0 then (if s.heron.powered && !s.heron.inReset && s.heron.pcieUp then bar0 x size a s else s)
  else whenHost (bar2 x size a) s

/-- SYN.RING_RELEASE, and the drop of a feed that waited on it. -/
def releaseRing (i : Issue) (s : State) : State := dropAfterRelease (ringRelease i s)

end Sys2Proof.Machine
end

