-- ==== Sys2Proof/Machine/CoreRows.lean ====
section
/-! DEFINITION. The meanings of the rows on the cores: sequencer, routines, matrix array, vector engine, movers, synchroniser and Signal Unit port. -/

namespace Sys2Proof.Machine

/-- SEQ_NOP (R192). -/
def execSeqNop (i : Issue) (s : State) : Host.Outcome State Fault Refusal := .next (whenUp (seqNop i) s)

/-- SEQ_END (R211). -/
def execSeqEnd (i : Issue) (s : State) : Host.Outcome State Fault Refusal := .next (whenUp (seqEnd i) s)

/-- STREAM_COMPLETE (R211). -/
def execStreamComplete (core : BitVec 10) (s : State) : Host.Outcome State Fault Refusal :=
  .next (whenUp (streamCompleted core.toNat) s)

/-- SEQ_REPEAT (R207). -/
def execSeqRepeat (i : Issue) (s : State) : Host.Outcome State Fault Refusal := .next (whenUp (seqRepeat i) s)

/-- SEQ_CALL_PATCH (R213). -/
def execSeqCallPatch (i : Issue) (patch : PatchRun) (s : State) : Host.Outcome State Fault Refusal :=
  .next (whenUp (callPatch i patch) s)

/-- SEQ_WAIT (R209). -/
def execSeqWait (i : Issue) (s : State) : Host.Outcome State Fault Refusal := .next (whenUp (seqWait i) s)

/-- SEQ_BARRIER (R210). -/
def execSeqBarrier (i : Issue) (s : State) : Host.Outcome State Fault Refusal := .next (whenUp (seqBarrier i) s)

/-- BARRIER_RELEASE (R362). -/
def execBarrierRelease (scope : BitVec 2) (inst : BitVec 6) (num : BitVec 4) (s : State) : Host.Outcome State Fault Refusal :=
  .next (whenUp (barrierRelease scope.toNat inst.toNat num.toNat) s)

/-- SEQ_MARK (R219). -/
def execSeqMark (i : Issue) (s : State) : Host.Outcome State Fault Refusal := .next (whenUp (seqMark i) s)

/-- RT_NOP (R216). -/
def execRtNop (i : Issue) (s : State) : Host.Outcome State Fault Refusal := .next (whenUp (rtNop i) s)

/-- RT_FILL (R216). -/
def execRtFill (i : Issue) (s : State) : Host.Outcome State Fault Refusal := .next (whenUp (rtFill i) s)

/-- RT_COPY (R216). -/
def execRtCopy (i : Issue) (s : State) : Host.Outcome State Fault Refusal := .next (whenUp (rtCopy i) s)

/-- RT_SOFTMAX_ROWS (R279). -/
def execRtSoftmaxRows (i : Issue) (s : State) : Host.Outcome State Fault Refusal := .next (whenUp (rtSoftmaxRows i) s)

/-- RT_DEFER_FIX (R280). -/
def execRtDeferFix (i : Issue) (s : State) : Host.Outcome State Fault Refusal := .next (whenUp (rtDeferFix i) s)

/-- RT_QSCALE (R304). -/
def execRtQscale (i : Issue) (s : State) : Host.Outcome State Fault Refusal := .next (whenUp (rtQscale i) s)

/-- RT_RESCALE (R310). -/
def execRtRescale (i : Issue) (s : State) : Host.Outcome State Fault Refusal := .next (whenUp (rtRescale i) s)

/-- RT_CRC24 (R216). -/
def execRtCrc24 (i : Issue) (s : State) : Host.Outcome State Fault Refusal := .next (whenUp (rtCrc24 i) s)

/-- RT_CRC32_CHECK (R216). -/
def execRtCrc32Check (i : Issue) (s : State) : Host.Outcome State Fault Refusal := .next (whenUp (rtCrc32Check i) s)

/-- RT_HCRC (R216). -/
def execRtHcrc (i : Issue) (s : State) : Host.Outcome State Fault Refusal := .next (whenUp (rtHcrc i) s)

/-- RT_SCRAMBLE (R216). -/
def execRtScramble (i : Issue) (s : State) : Host.Outcome State Fault Refusal := .next (whenUp (rtScramble i) s)

/-- RT_LDPC_ENC (R64). -/
def execRtLdpcEnc (i : Issue) (s : State) : Host.Outcome State Fault Refusal := .next (whenUp (rtLdpcEnc i) s)

/-- RT_GFSK_MOD (R216). -/
def execRtGfskMod (i : Issue) (s : State) : Host.Outcome State Fault Refusal := .next (whenUp (rtGfskMod i) s)

/-- RT_LABEL_BITS (R216). -/
def execRtLabelBits (i : Issue) (s : State) : Host.Outcome State Fault Refusal := .next (whenUp (rtLabelBits i) s)

/-- RT_HEAD_QUANT (R216). -/
def execRtHeadQuant (i : Issue) (s : State) : Host.Outcome State Fault Refusal := .next (whenUp (rtHeadQuant i) s)

/-- RT_CKPT_SAVE (R216). -/
def execRtCkptSave (i : Issue) (s : State) : Host.Outcome State Fault Refusal := .next (whenUp (rtCkptSave i) s)

/-- RT_CKPT_RESTORE (R216). -/
def execRtCkptRestore (i : Issue) (s : State) : Host.Outcome State Fault Refusal := .next (whenUp (rtCkptRestore i) s)

/-- RT_BIST_SPAD (R216). -/
def execRtBistSpad (i : Issue) (s : State) : Host.Outcome State Fault Refusal := .next (whenUp (rtBistSpad i) s)

/-- RT_BIST_ARRAY (R216). -/
def execRtBistArray (i : Issue) (s : State) : Host.Outcome State Fault Refusal := .next (whenUp (rtBistArray i) s)

/-- RT_CHECKER_TEST (R503). -/
def execRtCheckerTest (i : Issue) (fails : Bool) (s : State) : Host.Outcome State Fault Refusal :=
  .next (whenUp (rtCheckerTest i fails) s)

/-- ARR_LOAD (R231). -/
def execArrLoad (i : Issue) (s : State) : Host.Outcome State Fault Refusal := .next (whenUp (arrLoad i) s)

/-- ARR_STREAM (R238). -/
def execArrStream (i : Issue) (s : State) : Host.Outcome State Fault Refusal := .next (whenUp (arrStream 0x21 i) s)

/-- ARR_STREAM_T (R245). -/
def execArrStreamT (i : Issue) (s : State) : Host.Outcome State Fault Refusal := .next (whenUp (arrStream 0x22 i) s)

/-- ARR_CLEAR (R243). -/
def execArrClear (i : Issue) (s : State) : Host.Outcome State Fault Refusal := .next (whenUp (arrClear i) s)

/-- ARRAY_SWAP (R234). -/
def execArraySwap (core : ArrayEvent) (s : State) : Host.Outcome State Fault Refusal :=
  .next (whenUp (arraySwap core.core.toNat core.parity) s)

/-- ARR_STARVE (R237). -/
def execArrStarve (core : BitVec 10) (parity : Bool) (s : State) : Host.Outcome State Fault Refusal :=
  .next (whenUp (arrStarve core.toNat parity) s)

/-- DRAIN_START (R246). -/
def execDrainStart (core : ArrayEvent) (s : State) : Host.Outcome State Fault Refusal :=
  .next (whenUp (drainStart core.core.toNat core.parity) s)

/-- VEC_CHAIN (R270). -/
def execVecChain (i : Issue) (s : State) : Host.Outcome State Fault Refusal := .next (whenUp (vecChain i) s)

/-- VEC_SIDEADD (R302). -/
def execVecSideadd (i : Issue) (s : State) : Host.Outcome State Fault Refusal := .next (whenUp (vecSideAdd i) s)

/-- DESC_FILL (R283). -/
def execDescFill (i : Issue) (s : State) : Host.Outcome State Fault Refusal := .next (whenUp (vecDesc 0 i) s)

/-- DESC_COPY (R283). -/
def execDescCopy (i : Issue) (s : State) : Host.Outcome State Fault Refusal := .next (whenUp (vecDesc 1 i) s)

/-- DESC_CHAIN (R283). -/
def execDescChain (i : Issue) (s : State) : Host.Outcome State Fault Refusal := .next (whenUp (vecDesc 2 i) s)

/-- DESC_COMPARE (R284). -/
def execDescCompare (i : Issue) (s : State) : Host.Outcome State Fault Refusal := .next (whenUp (vecDesc 3 i) s)

/-- DESC_PATTERN_WRITE (R283). -/
def execDescPatternWrite (i : Issue) (s : State) : Host.Outcome State Fault Refusal := .next (whenUp (vecDesc 4 i) s)

/-- DESC_PATTERN_CHECK (R284). -/
def execDescPatternCheck (i : Issue) (s : State) : Host.Outcome State Fault Refusal := .next (whenUp (vecDesc 5 i) s)

/-- MOV_GET (R346). -/
def execMovGet (i : Issue) (s : State) : Host.Outcome State Fault Refusal := .next (whenUp (movGet i) s)

/-- MOV_PUT (R346). -/
def execMovPut (i : Issue) (s : State) : Host.Outcome State Fault Refusal := .next (whenUp (movPut i) s)

/-- MOV_MCAST (R358). -/
def execMovMcast (i : Issue) (s : State) : Host.Outcome State Fault Refusal := .next (whenUp (movMcast i) s)

/-- MOV_RING_FEED (R355). -/
def execMovRingFeed (i : Issue) (s : State) : Host.Outcome State Fault Refusal := .next (whenUp (movRingFeed i) s)

/-- RING_FILL_START (R355). -/
def execRingFillStart (core : BitVec 10) (ring : BitVec 3) (s : State) : Host.Outcome State Fault Refusal :=
  .next (whenUp (ringFillStart core.toNat ring.toNat) s)

/-- RING_FILL_COMMIT (R355). -/
def execRingFillCommit (core : BitVec 10) (ring : BitVec 3) (s : State) : Host.Outcome State Fault Refusal :=
  .next (whenUp (ringFillCommit core.toNat ring.toNat) s)

/-- MOVER_PACKET_ISSUE (R346). -/
def execMoverPacketIssue (core : BitVec 10) (queue : BitVec 4) (validBad : Bool) (s : State) : Host.Outcome State Fault Refusal :=
  .next (whenUp (moverPacketIssue core.toNat queue.toNat validBad) s)

/-- MOVER_READ_RESPONSE (R344). -/
def execMoverReadResponse (core : BitVec 10) (queue : BitVec 4) (errs : ReadErrors) (host : List Byte)
    (s : State) : Host.Outcome State Fault Refusal :=
  .next (whenUp (moverReadResponse core.toNat queue.toNat errs host) s)

/-- MOVER_WRITE_ACK (R347). -/
def execMoverWriteAck (core : BitVec 10) (queue : BitVec 4) (s : State) : Host.Outcome State Fault Refusal :=
  .next (whenUp (moverWriteAck core.toNat queue.toNat) s)

/-- SIG_START (R329). -/
def execSigStart (i : Issue) (s : State) : Host.Outcome State Fault Refusal := .next (whenUp (sigStart i) s)

/-- SIG_XFER (R330). -/
def execSigXfer (i : Issue) (s : State) : Host.Outcome State Fault Refusal := .next (whenUp (sigXfer i) s)

/-- SIG_IRQ (R332). -/
def execSigIrq (i : Issue) (s : State) : Host.Outcome State Fault Refusal := .next (whenUp (sigIrq i) s)

/-- SU_INTERRUPT_TAKEN (R333). -/
def execSuInterruptTaken (core : BitVec 10) (s : State) : Host.Outcome State Fault Refusal :=
  .next (whenUp (suInterrupt core.toNat) s)

/-- SU_TIMEOUT (R329). -/
def execSuTimeout (core : BitVec 10) (s : State) : Host.Outcome State Fault Refusal := .next (whenUp (suTimeout core.toNat) s)

/-- SYN_SET (R212). -/
def execSynSet (i : Issue) (s : State) : Host.Outcome State Fault Refusal := .next (whenUp (synSet i) s)

/-- SYN_ADD (R212). -/
def execSynAdd (i : Issue) (s : State) : Host.Outcome State Fault Refusal := .next (whenUp (synAdd i) s)

/-- SYN_SIGNAL (R361). -/
def execSynSignal (i : Issue) (s : State) : Host.Outcome State Fault Refusal := .next (whenUp (synSignal i) s)

/-- SIGNAL_ARRIVAL (R361). -/
def execSignalArrival (source : BitVec 10) (s : State) : Host.Outcome State Fault Refusal :=
  .next (whenUp (signalArrival source.toNat) s)

/-- SIGNAL_DONE (R361). -/
def execSignalDone (core : BitVec 10) (s : State) : Host.Outcome State Fault Refusal := .next (whenUp (signalDone core.toNat) s)

/-- SYN_RING_COMMIT (R354). -/
def execSynRingCommit (i : Issue) (s : State) : Host.Outcome State Fault Refusal := .next (whenUp (ringCommit i) s)

/-- SYN_RING_RELEASE (R354). -/
def execSynRingRelease (i : Issue) (s : State) : Host.Outcome State Fault Refusal := .next (whenUp (releaseRing i) s)

end Sys2Proof.Machine
end

