-- ==== Sys2Proof/Machine/HostRows.lean ====
section
/-! DEFINITION. The meanings of the rows on rings, downlink commands, dumps, the event ring, the BARs and the registers with rows of their own. -/

namespace Sys2Proof.Machine

/-- DOORBELL (R437). -/
def execDoorbell (ring : BitVec 5) (index : BitVec 16) (s : State) : Host.Outcome State Fault Refusal :=
  .next (whenHost (doorbell ring.toNat index.toNat) s)

/-- HOSTQ_ENABLE (R435). -/
def execHostqEnable (ring : BitVec 5) (cfg : BitVec 32) (s : State) : Host.Outcome State Fault Refusal :=
  .next (whenHost (ringConfig ring.toNat cfg) s)

/-- SUBMISSION_FETCH (R439). -/
def execSubmissionFetch (ring : BitVec 3) (slot : BitVec 256) (buf : List Byte) (ecc poison : Bool)
    (s : State) : Host.Outcome State Fault Refusal :=
  .next (whenReady (submissionFetch ring.toNat slot buf ecc poison) s)

/-- HOST_RING_PHASE (R439). -/
def execHostRingPhase (ring : BitVec 3) (s : State) : Host.Outcome State Fault Refusal :=
  .next (whenHost (hostRingPhase ring.toNat) s)

/-- DL_COMMAND (R444). -/
def execDlCommand (ring : BitVec 2) (desc : BitVec 256) (body : List Byte) (poison : Bool)
    (s : State) : Host.Outcome State Fault Refusal :=
  .next (whenReady (dlCommand (ring.toNat + 1) desc body poison) s)

/-- DL_HOLD_EXPIRY (R445). -/
def execDlHoldExpiry (s : State) : Host.Outcome State Fault Refusal := .next (whenUp holdExpiry s)

/-- DL_FRAME_HANDOVER (R517). -/
def execDlFrameHandover (s : State) : Host.Outcome State Fault Refusal := .next (whenUp handOver s)

/-- COUNTERS_DUMP (R592). -/
def execCountersDump (seqno : BitVec 16) (addr : BitVec 64) (len : BitVec 32) (s : State) : Host.Outcome State Fault Refusal :=
  .next (whenHost (countersDump seqno addr len) s)

/-- FAULT_LOG_DUMP (R593). -/
def execFaultLogDump (seqno : BitVec 16) (addr : BitVec 64) (len : BitVec 32) (s : State) : Host.Outcome State Fault Refusal :=
  .next (whenHost (faultLogDump seqno addr len) s)

/-- TRACE_DUMP (R595). -/
def execTraceDump (seqno : BitVec 16) (addr : BitVec 64) (len : BitVec 32) (s : State) : Host.Outcome State Fault Refusal :=
  .next (whenHost (traceDump seqno addr len) s)

/-- ETH_TX (R455). -/
def execEthTx (index : BitVec 16) (desc : BitVec 256) (frame : List Byte) (s : State) : Host.Outcome State Fault Refusal :=
  .next (whenHost (ethTx index.toNat desc frame) s)

/-- EVQ_HELD_WRITE (R448). -/
def execEvqHeldWrite (s : State) : Host.Outcome State Fault Refusal := .next (whenUp evqHeldWrite s)

/-- COALESCE_EXPIRY (R452). -/
def execCoalesceExpiry (ring : BitVec 5) (s : State) : Host.Outcome State Fault Refusal :=
  .next (whenUp (coalesceExpiry ring.toNat) s)

/-- BAR4_ACCESS (R457). -/
def execBar4Access (offset : BitVec 28) (size : BitVec 8) (a : BarAccess) (errs : ReadErrors)
    (s : State) : Host.Outcome State Fault Refusal :=
  .next (whenHost (bar4Access offset.toNat size.toNat a errs) s)

/-- REGISTER_WRITE (R9). -/
def execRegisterWrite (bar0 : Bool) (offset : BitVec 22) (size : BitVec 8) (a : BarAccess)
    (s : State) : Host.Outcome State Fault Refusal :=
  .next (registerAccess bar0 offset.toNat size.toNat a s)

/-- ERR_CLEAR (R591). -/
def execErrClear (v : BitVec 32) (s : State) : Host.Outcome State Fault Refusal := .next (whenHost (writeWord 0x0A0000 v) s)

/-- TRACE_CTRL_WRITE (R594). -/
def execTraceCtrlWrite (clusters : Bool) (v : BitVec 64) (s : State) : Host.Outcome State Fault Refusal :=
  .next (whenHost (traceWrite clusters v) s)

/-- GUARD_MUTE_CLEAR (R522). -/
def execGuardMuteClear (v : BitVec 32) (s : State) : Host.Outcome State Fault Refusal :=
  .next (whenHost (writeWord 0x060010 v) s)

/-- PWR_CAP_WRITE (R558). -/
def execPwrCapWrite (v : BitVec 32) (s : State) : Host.Outcome State Fault Refusal := .next (whenHost (writeWord 0x090000 v) s)

/-- RELINQUISH (R482). -/
def execRelinquish (s : State) : Host.Outcome State Fault Refusal := .next (whenHost (writeWord 0x0B001C 1) s)

/-- TAKE (R482). -/
def execTake (s : State) : Host.Outcome State Fault Refusal := .next (whenHost (writeWord 0x0B001C 2) s)

/-- MOD_HEARTBEAT (R582). -/
def execModHeartbeat (corrected : Nat) (s : State) : Host.Outcome State Fault Refusal := .next (whenUp (heartbeat corrected) s)

end Sys2Proof.Machine
end

