-- ==== Sys2Proof/Machine/JobRows.lean ====
section
/-! DEFINITION. The meanings of the rows on job control, the phases of a slot, the boundary, adaptation, fences, decoders and context swaps. -/

namespace Sys2Proof.Machine

/-- IMAGE_LOAD (R118). -/
def execImageLoad (seqno : BitVec 16) (addr : BitVec 64) (image : List Byte) (s : State) : Host.Outcome State Fault Refusal :=
  .next (whenReady (submitJob (.imageLoad seqno addr image)) s)

/-- JOB_START (R371). -/
def execJobStart (seqno : BitVec 16) (schedule : List (BitVec 128)) (s : State) : Host.Outcome State Fault Refusal :=
  .next (whenReady (submitJob (.jobStart seqno schedule)) s)

/-- JOB_RUNNING (R371). -/
def execJobRunning (s : State) : Host.Outcome State Fault Refusal := .next (whenUp jobRunning s)

/-- JOB_STOP (R375). -/
def execJobStop (seqno : BitVec 16) (s : State) : Host.Outcome State Fault Refusal :=
  .next (whenReady (submitJob (.jobStop seqno)) s)

/-- CHANNEL_SET (R374). -/
def execChannelSet (seqno : BitVec 16) (addr : BitVec 64) (table : List (BitVec 64))
    (s : State) : Host.Outcome State Fault Refusal :=
  .next (whenReady (submitJob (.channelSet seqno addr table)) s)

/-- PARAM_SET (R374). -/
def execParamSet (seqno d fh cw hold : BitVec 16) (detAddr : BitVec 64) (det : List (BitVec 64))
    (s : State) : Host.Outcome State Fault Refusal :=
  .next (whenReady (submitJob (.paramSet seqno d fh cw hold detAddr det)) s)

/-- STEP (R384). -/
def execStep (seqno : BitVec 16) (slot : BitVec 48) (leaves joins : List (BitVec 20)) (listAddr : BitVec 64)
    (s : State) : Host.Outcome State Fault Refusal :=
  .next (whenReady (submitJob (.step seqno slot leaves joins listAddr)) s)

/-- ADAPT_ENABLE (R149). -/
def execAdaptEnable (seqno : BitVec 16) (airClass group : Byte) (s : State) : Host.Outcome State Fault Refusal :=
  .next (whenReady (submitJob (.adapt 0x10 seqno airClass group)) s)

/-- ADAPT_DISABLE (R149). -/
def execAdaptDisable (seqno : BitVec 16) (airClass group : Byte) (s : State) : Host.Outcome State Fault Refusal :=
  .next (whenReady (submitJob (.adapt 0x11 seqno airClass group)) s)

/-- ADAPT_RESUME (R149). -/
def execAdaptResume (seqno : BitVec 16) (airClass group : Byte) (s : State) : Host.Outcome State Fault Refusal :=
  .next (whenReady (submitJob (.adapt 0x12 seqno airClass group)) s)

/-- HEAD_REVERT (R149). -/
def execHeadRevert (seqno : BitVec 16) (airClass group : Byte) (s : State) : Host.Outcome State Fault Refusal :=
  .next (whenReady (submitJob (.adapt 0x13 seqno airClass group)) s)

/-- HEAD_RESET (R149). -/
def execHeadReset (seqno : BitVec 16) (airClass group : Byte) (s : State) : Host.Outcome State Fault Refusal :=
  .next (whenReady (submitJob (.adapt 0x14 seqno airClass group)) s)

/-- JOB_FAULT (R376). -/
def execJobFault (s : State) : Host.Outcome State Fault Refusal := .next (whenUp jobFaultStep s)

/-- JOB_RESTART (R377). -/
def execJobRestart (s : State) : Host.Outcome State Fault Refusal := .next (whenUp jobRestart s)

/-- INGEST_CLOSE (R80). -/
def execIngestClose (missing : BitVec 32) (s : State) : Host.Outcome State Fault Refusal :=
  .next (whenUp (ingestClose missing) s)

/-- CHAN (R83). -/
def execChan (ins : List ChanPoison) (s : State) : Host.Outcome State Fault Refusal := .next (whenUp (chanPhase ins) s)

/-- DETECT (R90). -/
def execDetect (evals hits : List DetEst) (s : State) : Host.Outcome State Fault Refusal :=
  .next (whenUp (detectPhase evals hits) s)

/-- RECV (R94). -/
def execRecv (ins : List RecvBurst) (s : State) : Host.Outcome State Fault Refusal := .next (whenUp (recvPhase ins) s)

/-- DECODE (R103). -/
def execDecode (s : State) : Host.Outcome State Fault Refusal := .next (whenUp decodePhase s)

/-- DELIVER (R107). -/
def execDeliver (s : State) : Host.Outcome State Fault Refusal := .next (whenUp deliverPhase s)

/-- STATS_COMBINE (R308). -/
def execStatsCombine (s : State) : Host.Outcome State Fault Refusal := .next (whenUp statsCombine s)

/-- COMBINING_PASS (R106). -/
def execCombiningPass (s : State) : Host.Outcome State Fault Refusal := .next (whenUp combiningPass s)

/-- ADAPT_BLOCK (R79). -/
def execAdaptBlock (a : AdaptBlock) (s : State) : Host.Outcome State Fault Refusal := .next (whenUp (adaptBlockStep a) s)

/-- PHASE_BARRIER_RELEASE (R364). -/
def execPhaseBarrierRelease (s : State) : Host.Outcome State Fault Refusal := .next (whenUp phaseBarrier s)

/-- DEADLINE_REACHED (R380). -/
def execDeadlineReached (s : State) : Host.Outcome State Fault Refusal := .next (whenUp deadlineReached s)

/-- PROCESSING_BOUNDARY (R372). -/
def execProcessingBoundary (causes : BitVec 5) (s : State) : Host.Outcome State Fault Refusal :=
  .next (whenUp (processingBoundary causes) s)

/-- COUNTER_FOLD_IDLE (R592). -/
def execCounterFoldIdle (s : State) : Host.Outcome State Fault Refusal := .next (whenUp foldIdle s)

/-- SOFT_HOLD_EXPIRY (R175). -/
def execSoftHoldExpiry (s : State) : Host.Outcome State Fault Refusal := .next (whenUp softHoldExpiry s)

/-- ROLLBACK_WATCH_CHECK (R147). -/
def execRollbackWatchCheck (airClass group : Byte) (s : State) : Host.Outcome State Fault Refusal :=
  .next (whenUp (watchCheck (adaptKey airClass.toNat group.toNat)) s)

/-- STALL_CHECK (R366). -/
def execStallCheck (s : State) : Host.Outcome State Fault Refusal := .next (whenUp stallCheck s)

/-- FENCE (R30). -/
def execFence (kind : FencedUnit) (unit : BitVec 10) (s : State) : Host.Outcome State Fault Refusal :=
  .next (whenUp (fence kind unit.toNat) s)

/-- DECODER_FENCE (R179). -/
def execDecoderFence (cluster : BitVec 6) (s : State) : Host.Outcome State Fault Refusal :=
  .next (whenUp (decoderFence cluster.toNat) s)

/-- DECODER_PASS (R164). -/
def execDecoderPass (cluster : BitVec 6) (s : State) : Host.Outcome State Fault Refusal :=
  .next (whenUp (passStart cluster.toNat) s)

/-- DECODER_PASS_END (R169). -/
def execDecoderPassEnd (cluster : BitVec 6) (bad : List DecUpset) (corrected : Nat) (s : State) : Host.Outcome State Fault Refusal :=
  .next (whenUp (passEnd cluster.toNat bad corrected) s)

/-- SWAP_ENGINE_SERVE (R421). -/
def execSwapEngineServe (slice : BitVec 6) (s : State) : Host.Outcome State Fault Refusal :=
  .next (whenUp (serveSlice slice.toNat) s)

/-- SWAP_IN_DONE (R421). -/
def execSwapInDone (slot : BitVec 16) (s : State) : Host.Outcome State Fault Refusal := .next (whenUp (swapInDone slot.toNat) s)

/-- SPILL_DONE (R421). -/
def execSpillDone (slot : BitVec 16) (s : State) : Host.Outcome State Fault Refusal := .next (whenUp (spillDone slot.toNat) s)

/-- CTX_POISON (R425). -/
def execCtxPoison (slot : BitVec 16) (s : State) : Host.Outcome State Fault Refusal := .next (whenUp (ctxPoisoned slot.toNat) s)

end Sys2Proof.Machine
end

