-- ==== Sys2Proof/Machine/NetRows.lean ====
section
/-! DEFINITION. The meanings of the rows on Ethernet ports, fronthaul, the fabric, the redundant pair and the Causeway. -/

namespace Sys2Proof.Machine

/-- ECPRI_IQ_RECEIVE (R466). -/
def execEcpriIqReceive (port : BitVec 3) (mac : BitVec 48) (msg : List Byte) (s : State) : Host.Outcome State Fault Refusal :=
  .next (whenUp (ecpriIqReceive port.toNat mac.toNat msg) s)

/-- ECPRI_DELAY_REQUEST (R468). -/
def execEcpriDelayRequest (port : BitVec 3) (mac : BitVec 48) (id : Byte) (s : State) : Host.Outcome State Fault Refusal :=
  .next (whenUp (ecpriDelayRequest port.toNat mac.toNat id) s)

/-- HOST_FRAME_RECEIVE (R456). -/
def execHostFrameReceive (port : BitVec 3) (good : Bool) (frame : List Byte) (s : State) : Host.Outcome State Fault Refusal :=
  .next (whenUp (hostFrameReceive port.toNat good frame) s)

/-- LLDP_RECEIVE (R470). -/
def execLldpReceive (port : BitVec 3) (tlv : Option (BitVec 48)) (frame : List Byte)
    (s : State) : Host.Outcome State Fault Refusal :=
  .next (whenUp (lldpReceive port.toNat tlv frame) s)

/-- LLDP_SEND (R470). -/
def execLldpSend (port : BitVec 3) (s : State) : Host.Outcome State Fault Refusal := .next (whenUp (lldpSend port.toNat) s)

/-- LINK_LOSS (R460). -/
def execLinkLoss (port : BitVec 3) (queued : Nat) (s : State) : Host.Outcome State Fault Refusal :=
  .next (whenUp (linkLoss port.toNat queued) s)

/-- RETRAIN_TIMEOUT (R460). -/
def execRetrainTimeout (port : BitVec 3) (ok : BitVec 8) (s : State) : Host.Outcome State Fault Refusal :=
  .next (whenUp (retrainTimeout port.toNat ok) s)

/-- LINK_TRAINED (R459). -/
def execLinkTrained (port : BitVec 3) (ok : BitVec 8) (s : State) : Host.Outcome State Fault Refusal :=
  .next (whenUp (linkTrained port.toNat ok) s)

/-- LANE_TRAINING_ATTEMPT (R559). -/
def execLaneTrainingAttempt (port : BitVec 3) (ok : BitVec 8) (s : State) : Host.Outcome State Fault Refusal :=
  .next (whenUp (laneTrainingAttempt port.toNat ok) s)

/-- FABRIC_TRANSIT (R474). -/
def execFabricTransit (port : BitVec 3) (packet : List Byte) (s : State) : Host.Outcome State Fault Refusal :=
  .next (whenUp (fabricTransit port.toNat packet) s)

/-- READ_REQ (R477). -/
def execReadReq (x : FabricRx) (s : State) : Host.Outcome State Fault Refusal := .next (whenUp (readReq x) s)

/-- READ_RESP (R477). -/
def execReadResp (x : FabricRx) (s : State) : Host.Outcome State Fault Refusal := .next (whenUp (readResp x) s)

/-- WRITE (R477). -/
def execWrite (x : FabricRx) (s : State) : Host.Outcome State Fault Refusal := .next (whenUp (write x) s)

/-- NACK (R349). -/
def execNack (x : FabricRx) (s : State) : Host.Outcome State Fault Refusal := .next (whenUp (nackReceive x) s)

/-- COMBINE (R105). -/
def execCombine (x : FabricRx) (s : State) : Host.Outcome State Fault Refusal := .next (whenUp (combine x) s)

/-- SEQ_SYNC (R483). -/
def execSeqSync (x : FabricRx) (s : State) : Host.Outcome State Fault Refusal := .next (whenUp (seqSync x) s)

/-- ACK_ONLY (R473). -/
def execAckOnly (x : FabricRx) (s : State) : Host.Outcome State Fault Refusal := .next (whenUp (ackOnly x) s)

/-- FLOW_ACK_SEND (R473). -/
def execFlowAckSend (node : BitVec 6) (s : State) : Host.Outcome State Fault Refusal :=
  .next (whenUp (flowAckSend node.toNat) s)

/-- RETX_TIMEOUT (R473). -/
def execRetxTimeout (node : BitVec 6) (s : State) : Host.Outcome State Fault Refusal :=
  .next (whenUp (retxTimeout node.toNat) s)

/-- KEEPALIVE (R475). -/
def execKeepalive (port : BitVec 3) (good : Bool) (s : State) : Host.Outcome State Fault Refusal :=
  .next (whenUp (keepalive port.toNat good) s)

/-- KEEPALIVE_SEND (R475). -/
def execKeepaliveSend (s : State) : Host.Outcome State Fault Refusal := .next (whenUp keepaliveSend s)

/-- KEEPALIVE_MISS (R475). -/
def execKeepaliveMiss (port : BitVec 3) (lockLost : Bool) (s : State) : Host.Outcome State Fault Refusal :=
  .next (whenUp (keepaliveMiss port.toNat lockLost) s)

/-- RING_STATE (R475). -/
def execRingState (port : BitVec 3) (good : Bool) (src : BitVec 6) (brokenE brokenW : Bool) (bypass : BitVec 32) (packet : List Byte)
    (s : State) : Host.Outcome State Fault Refusal :=
  .next (whenUp (ringState port.toNat good src.toNat brokenE brokenW bypass packet) s)

/-- PAIR_HB_SEND (R484). -/
def execPairHbSend (s : State) : Host.Outcome State Fault Refusal := .next (whenUp pairHbSend s)

/-- PAIR_HB (R485). -/
def execPairHb (good : Bool) (src : BitVec 6) (slot : BitVec 64) (role flags : Byte)
    (s : State) : Host.Outcome State Fault Refusal :=
  .next (whenUp (pairHb good src.toNat slot role flags) s)

/-- PAIR_TAKEOVER (R485). -/
def execPairTakeover (s : State) : Host.Outcome State Fault Refusal := .next (whenUp pairTakeover s)

/-- CAUSEWAY_CLOSE (R480). -/
def execCausewayClose (s : State) : Host.Outcome State Fault Refusal := .next (causewayClose s)

/-- CAUSEWAY_OPEN (R480). -/
def execCausewayOpen (s : State) : Host.Outcome State Fault Refusal := .next (whenUp causewayOpen s)

/-- BYPASS_FORCE (R480). -/
def execBypassForce (asserted : Bool) (s : State) : Host.Outcome State Fault Refusal := .next (bypassForce asserted s)

end Sys2Proof.Machine
end

