-- ==== Sys2Proof/Machine/SafetyRows.lean ====
section
/-! DEFINITION. The meanings of the rows on the Sluice, module stop and its sources, triplicated words, scrubbing, power, voltage and JTAG. -/

namespace Sys2Proof.Machine

/-- SLUICE_CHECK (R518). -/
def execSluiceCheck (i : SluiceIn) (s : State) : Host.Outcome State Fault Refusal := .next (whenUp (checkFrame i) s)

/-- SLUICE_SECOND (R519). -/
def execSluiceSecond (s : State) : Host.Outcome State Fault Refusal := .next (whenUp newSluiceSecond s)

/-- PRELOAD_END (R520). -/
def execPreloadEnd (s : State) : Host.Outcome State Fault Refusal := .next (whenUp preloadEnd s)

/-- SELFTEST_FRAME (R523). -/
def execSelftestFrame (defect : Bool) (s : State) : Host.Outcome State Fault Refusal := .next (whenUp (selfTestDue defect) s)

/-- CLOCK_MONITOR (R521). -/
def execClockMonitor (alarm : Bool) (s : State) : Host.Outcome State Fault Refusal := .next (whenUp (clockMonitor alarm) s)

/-- THERM_TRIP (R529). -/
def execThermTrip (s : State) : Host.Outcome State Fault Refusal := .next (whenPowered thermTrip s)

/-- SYSCLK_LOST (R533). -/
def execSysclkLost (s : State) : Host.Outcome State Fault Refusal := .next (whenUp sysclkLost s)

/-- HERON_LOCKSTEP (R533). -/
def execHeronLockstep (s : State) : Host.Outcome State Fault Refusal := .next (whenUp heronLockstep s)

/-- MODULE_STOP (R533). -/
def execModuleStop (cause : BitVec 3) (s : State) : Host.Outcome State Fault Refusal := .next (whenUp (stopLine cause.toNat) s)

/-- RAIL_ALARM (R604). -/
def execRailAlarm (rail : BitVec 4) (ports : BitVec 6) (queued : List Nat) (s : State) : Host.Outcome State Fault Refusal :=
  .next (whenUp (railAlarm rail.toNat ports queued) s)

/-- QUARTER_LOST (R532). -/
def execQuarterLost (q : BitVec 2) (s : State) : Host.Outcome State Fault Refusal := .next (whenUp (loseQuarter q.toNat) s)

/-- TMR_COMPARE (R495). -/
def execTmrCompare (upsets : List TmrUpset) (s : State) : Host.Outcome State Fault Refusal :=
  .next (whenUp (tmrCompare upsets) s)

/-- SCRUB_READ (R505). -/
def execScrubRead (storage : BitVec 11) (first second : ReadErrors) (s : State) : Host.Outcome State Fault Refusal :=
  .next (whenUp (scrubRead storage.toNat first second) s)

/-- SCRUB_WRITEBACK (R506). -/
def execScrubWriteback (storage : BitVec 11) (s : State) : Host.Outcome State Fault Refusal :=
  .next (whenUp (scrubWriteback storage.toNat) s)

/-- UNIT_SCRUB (R505). -/
def execUnitScrub (kind : BitVec 2) (unit : BitVec 16) (word : BitVec 16) (flips : List Nat)
    (s : State) : Host.Outcome State Fault Refusal :=
  .next (whenUp (unitScrub kind.toNat unit.toNat word.toNat flips) s)

/-- LANE_SPARED (R542). -/
def execLaneSpared (link : BitVec 2) (dir : BitVec 1) (lane : BitVec 10) (errors : Nat)
    (s : State) : Host.Outcome State Fault Refusal :=
  .next (whenUp (laneSpared link.toNat dir.toNat lane.toNat errors) s)

/-- POWER_CAP_CONTROL (R558). -/
def execPowerCapControl (estimate : BitVec 16) (s : State) : Host.Outcome State Fault Refusal :=
  .next (whenUp (capControl estimate.toNat) s)

/-- THERMAL_SENSOR_READ (R561). -/
def execThermalSensorRead (q : BitVec 2) (readings : List Int) (s : State) : Host.Outcome State Fault Refusal :=
  .next (whenUp (thermalRead q.toNat readings) s)

/-- VDDC_TARGET_STEP (R562). -/
def execVddcTargetStep (q : BitVec 2) (raise : Bool) (s : State) : Host.Outcome State Fault Refusal :=
  .next (whenUp (vddcStep q.toNat raise) s)

/-- VDDC_CHANGED_CLEAR (R608). -/
def execVddcChangedClear (s : State) : Host.Outcome State Fault Refusal := .next (whenPowered vddcClear s)

/-- JTAG_BYPASS (R609). -/
def execJtagBypass (bits : List Bool) (b : BootInputs) (s : State) : Host.Outcome State Fault Refusal :=
  .next (whenPowered (jtagBypass bits b) s)

/-- JTAG_SAMPLE_PRELOAD (R609). -/
def execJtagSamplePreload (levels chain : List Bool) (b : BootInputs) (s : State) : Host.Outcome State Fault Refusal :=
  .next (whenPowered (jtagSample levels chain b) s)

/-- JTAG_EXTEST (R609). -/
def execJtagExtest (levels chain : List Bool) (s : State) : Host.Outcome State Fault Refusal :=
  .next (whenPowered (jtagExtest levels chain) s)

/-- JTAG_IDCODE (R609). -/
def execJtagIdcode (b : BootInputs) (s : State) : Host.Outcome State Fault Refusal := .next (whenPowered (jtagIdcode b) s)

end Sys2Proof.Machine
end

