-- ==== Sys2Proof/Machine/SessionRows.lean ====
section
/-! DEFINITION. The meanings of the rows on sessions, the time base and PPS. -/

namespace Sys2Proof.Machine

/-- SESSION_ADD (R410). -/
def execSessionAdd (seqno : BitVec 16) (shortId : BitVec 32) (home headSel ulRing : Byte)
    (s : State) : Host.Outcome State Fault Refusal :=
  .next (whenReady (submitCfg (.sessionAdd seqno shortId home headSel ulRing)) s)

/-- SESSION_MODIFY (R412). -/
def execSessionModify (seqno : BitVec 16) (shortId : BitVec 32) (home headSel ulRing : Byte)
    (s : State) : Host.Outcome State Fault Refusal :=
  .next (whenReady (submitCfg (.sessionModify seqno shortId home headSel ulRing)) s)

/-- SESSION_REMOVE (R412). -/
def execSessionRemove (seqno : BitVec 16) (shortId : BitVec 32) (s : State) : Host.Outcome State Fault Refusal :=
  .next (whenReady (submitCfg (.sessionRemove seqno shortId)) s)

/-- TIME_SAMPLE (R401). -/
def execTimeSample (seqno : BitVec 16) (addr : BitVec 64) (block : List Byte) (s : State) : Host.Outcome State Fault Refusal :=
  .next (whenReady (submitCfg (.timeSample seqno addr block)) s)

/-- SAMPLE_TIMEOUT (R403). -/
def execSampleTimeout (s : State) : Host.Outcome State Fault Refusal := .next (whenUp sampleTimeout s)

/-- HOLDOVER_LIMIT (R403). -/
def execHoldoverLimit (s : State) : Host.Outcome State Fault Refusal := .next (whenUp holdoverLimit s)

/-- TIMING_UNSAFE_CLEAR (R404). -/
def execTimingUnsafeClear (s : State) : Host.Outcome State Fault Refusal := .next (whenUp timingUnsafeClear s)

/-- TIME_FORCE_GO (R405). -/
def execTimeForceGo (v : BitVec 32) (s : State) : Host.Outcome State Fault Refusal := .next (whenHost (writeWord 0x050040 v) s)

/-- STEP_MUTE_END (R405). -/
def execStepMuteEnd (s : State) : Host.Outcome State Fault Refusal := .next (whenUp stepMuteEnd s)

/-- TIME_SNAP (R393). -/
def execTimeSnap (v : BitVec 32) (s : State) : Host.Outcome State Fault Refusal := .next (whenHost (writeWord 0x050020 v) s)

/-- TIME_INCR_WRITE (R390). -/
def execTimeIncrWrite (v : BitVec 64) (s : State) : Host.Outcome State Fault Refusal :=
  .next (whenHost (bar2 0x050008 8 (.write v)) s)

/-- PPS_IN_EDGE (R408). -/
def execPpsInEdge (rising : Bool) (s : State) : Host.Outcome State Fault Refusal := .next (whenUp (ppsEdge rising) s)

/-- PPS_IN_LOST (R408). -/
def execPpsInLost (s : State) : Host.Outcome State Fault Refusal := .next (whenUp ppsLost s)

/-- PPS_OUT_PULSE (R407). -/
def execPpsOutPulse (s : State) : Host.Outcome State Fault Refusal := .next (whenUp ppsPulse s)

/-- PPS_OUT_END (R407). -/
def execPpsOutEnd (s : State) : Host.Outcome State Fault Refusal := .next (whenUp ppsPulseEnd s)

end Sys2Proof.Machine
end

