-- ==== Sys2Proof/Machine/SignalRows.lean ====
section
/-! DEFINITION. The meanings of the rows on the slots of Signal Unit bundles. -/

namespace Sys2Proof.Machine

/-- SU_NOP (R317). -/
def execSuNop (i : SuIssue) (s : State) : Host.Outcome State Fault Refusal := .next (whenUp (suNop i) s)

/-- SU_LDX (R318). -/
def execSuLdx (i : SuIssue) (s : State) : Host.Outcome State Fault Refusal := .next (whenUp (suSlot i 0 0x01 (suLoad i 0 4)) s)

/-- SU_LDY (R318). -/
def execSuLdy (i : SuIssue) (s : State) : Host.Outcome State Fault Refusal := .next (whenUp (suSlot i 0 0x02 (suLoad i 1 4)) s)

/-- SU_LDXY (R318). -/
def execSuLdxy (i : SuIssue) (s : State) : Host.Outcome State Fault Refusal :=
  .next (whenUp (suSlot i 0 0x03 (suLoadTwo i 1)) s)

/-- SU_STX (R318). -/
def execSuStx (i : SuIssue) (s : State) : Host.Outcome State Fault Refusal :=
  .next (whenUp (suSlot i 0 0x04 (suStore i false 4)) s)

/-- SU_STY (R318). -/
def execSuSty (i : SuIssue) (s : State) : Host.Outcome State Fault Refusal :=
  .next (whenUp (suSlot i 0 0x05 (suStore i true 4)) s)

/-- SU_LDX16 (R318). -/
def execSuLdx16 (i : SuIssue) (s : State) : Host.Outcome State Fault Refusal :=
  .next (whenUp (suSlot i 0 0x06 (suLoad i 0 2)) s)

/-- SU_LDY16 (R318). -/
def execSuLdy16 (i : SuIssue) (s : State) : Host.Outcome State Fault Refusal :=
  .next (whenUp (suSlot i 0 0x07 (suLoad i 1 2)) s)

/-- SU_STX16 (R318). -/
def execSuStx16 (i : SuIssue) (s : State) : Host.Outcome State Fault Refusal :=
  .next (whenUp (suSlot i 0 0x08 (suStore i false 2)) s)

/-- SU_LDC (R318). -/
def execSuLdc (i : SuIssue) (s : State) : Host.Outcome State Fault Refusal := .next (whenUp (suSlot i 0 0x09 (suLoad i 2 4)) s)

/-- SU_LDXC (R318). -/
def execSuLdxc (i : SuIssue) (s : State) : Host.Outcome State Fault Refusal :=
  .next (whenUp (suSlot i 0 0x0A (suLoadTwo i 2)) s)

/-- SU_MAC (R321). -/
def execSuMac (i : SuIssue) (s : State) : Host.Outcome State Fault Refusal :=
  .next (whenUp (suSlot i 1 0x01 (suMac i fun n a b _ _ => macPlain n false (lo16 a * lo16 b))) s)

/-- SU_MSU (R321). -/
def execSuMsu (i : SuIssue) (s : State) : Host.Outcome State Fault Refusal :=
  .next (whenUp (suSlot i 1 0x02 (suMac i fun n a b _ _ => macPlain n false (-(lo16 a * lo16 b)))) s)

/-- SU_MAC2 (R321). -/
def execSuMac2 (i : SuIssue) (s : State) : Host.Outcome State Fault Refusal :=
  .next (whenUp (suSlot i 1 0x03 (suMac i fun n a b _ _ => macPlain n false (lo16 a * lo16 b + hi16 a * hi16 b))) s)

/-- SU_CMAC (R321). -/
def execSuCmac (i : SuIssue) (s : State) : Host.Outcome State Fault Refusal :=
  .next (whenUp (suSlot i 1 0x04 (suMac i fun n a b _ _ => macPair n false (cmul false a b) 0)) s)

/-- SU_CMACC (R321). -/
def execSuCmacc (i : SuIssue) (s : State) : Host.Outcome State Fault Refusal :=
  .next (whenUp (suSlot i 1 0x05 (suMac i fun n a b _ _ => macPair n false (cmul true a b) 0)) s)

/-- SU_CMAC2 (R321). -/
def execSuCmac2 (i : SuIssue) (s : State) : Host.Outcome State Fault Refusal :=
  .next (whenUp (suSlot i 1 0x06 (suMac i fun n a b c d => macPair n false (cadd (cmul false a b) (cmul false c d)) 1)) s)

/-- SU_CMACD (R321). -/
def execSuCmacd (i : SuIssue) (s : State) : Host.Outcome State Fault Refusal :=
  .next (whenUp (suSlot i 1 0x07 (suMac i fun _ a b c d => macPair 0 false (cmul false a b) 0 ++ macPair 2 false (cmul false c d) 2)) s)

/-- SU_MPY (R321). -/
def execSuMpy (i : SuIssue) (s : State) : Host.Outcome State Fault Refusal :=
  .next (whenUp (suSlot i 1 0x08 (suMac i fun n a b _ _ => macPlain n true (lo16 a * lo16 b))) s)

/-- SU_CMPY (R321). -/
def execSuCmpy (i : SuIssue) (s : State) : Host.Outcome State Fault Refusal :=
  .next (whenUp (suSlot i 1 0x09 (suMac i fun n a b _ _ => macPair n true (cmul false a b) 0)) s)

/-- SU_CMAG (R321). -/
def execSuCmag (i : SuIssue) (s : State) : Host.Outcome State Fault Refusal :=
  .next (whenUp (suSlot i 1 0x0A (suMac i fun n a _ _ _ => [⟨n, false, lo16 a * lo16 a + hi16 a * hi16 a, 3⟩])) s)

/-- SU_ADD (R323). -/
def execSuAdd (i : SuIssue) (s : State) : Host.Outcome State Fault Refusal :=
  .next (whenUp (suSlot i 2 0x01 (suAlu i fun a b => satResult (a.toInt + b.toInt))) s)

/-- SU_SUB (R323). -/
def execSuSub (i : SuIssue) (s : State) : Host.Outcome State Fault Refusal :=
  .next (whenUp (suSlot i 2 0x02 (suAlu i fun a b => satResult (a.toInt - b.toInt))) s)

/-- SU_ADDW (R323). -/
def execSuAddw (i : SuIssue) (s : State) : Host.Outcome State Fault Refusal :=
  .next (whenUp (suSlot i 2 0x03 (suAlu i fun a b => (some (a + b).toInt, some (exactFlags (a.toInt + b.toInt))))) s)

/-- SU_ADD2 (R323). -/
def execSuAdd2 (i : SuIssue) (s : State) : Host.Outcome State Fault Refusal :=
  .next (whenUp (suSlot i 2 0x04 (suHalves i (· + ·))) s)

/-- SU_SUB2 (R323). -/
def execSuSub2 (i : SuIssue) (s : State) : Host.Outcome State Fault Refusal :=
  .next (whenUp (suSlot i 2 0x05 (suHalves i (· - ·))) s)

/-- SU_AND (R323). -/
def execSuAnd (i : SuIssue) (s : State) : Host.Outcome State Fault Refusal :=
  .next (whenUp (suSlot i 2 0x06 (suAlu i fun a b => (some (a &&& b).toInt, none))) s)

/-- SU_OR (R323). -/
def execSuOr (i : SuIssue) (s : State) : Host.Outcome State Fault Refusal :=
  .next (whenUp (suSlot i 2 0x07 (suAlu i fun a b => (some (a ||| b).toInt, none))) s)

/-- SU_XOR (R323). -/
def execSuXor (i : SuIssue) (s : State) : Host.Outcome State Fault Refusal :=
  .next (whenUp (suSlot i 2 0x08 (suAlu i fun a b => (some (a ^^^ b).toInt, none))) s)

/-- SU_SHR (R323). -/
def execSuShr (i : SuIssue) (s : State) : Host.Outcome State Fault Refusal :=
  .next (whenUp (suSlot i 2 0x09 (suAlu i fun a b => satResult (shiftRound a.toInt (b.toNat % 32)))) s)

/-- SU_SHL (R323). -/
def execSuShl (i : SuIssue) (s : State) : Host.Outcome State Fault Refusal :=
  .next (whenUp (suSlot i 2 0x0A (suAlu i fun a b => satResult (a.toInt * 2 ^ (b.toNat % 32)))) s)

/-- SU_MIN (R323). -/
def execSuMin (i : SuIssue) (s : State) : Host.Outcome State Fault Refusal :=
  .next (whenUp (suSlot i 2 0x0B (suAlu i fun a b => (some (min a.toInt b.toInt), none))) s)

/-- SU_MAX (R323). -/
def execSuMax (i : SuIssue) (s : State) : Host.Outcome State Fault Refusal :=
  .next (whenUp (suSlot i 2 0x0C (suAlu i fun a b => (some (max a.toInt b.toInt), none))) s)

/-- SU_ABS (R323). -/
def execSuAbs (i : SuIssue) (s : State) : Host.Outcome State Fault Refusal :=
  .next (whenUp (suSlot i 2 0x0D (suAluOne i fun a => satResult a.toInt.natAbs)) s)

/-- SU_NEG (R323). -/
def execSuNeg (i : SuIssue) (s : State) : Host.Outcome State Fault Refusal :=
  .next (whenUp (suSlot i 2 0x0E (suAluOne i fun a => satResult (-a.toInt))) s)

/-- SU_CMP (R323). -/
def execSuCmp (i : SuIssue) (s : State) : Host.Outcome State Fault Refusal :=
  .next (whenUp (suSlot i 2 0x0F (suAlu i fun a b => (none, some (exactFlags (a.toInt - b.toInt))))) s)

/-- SU_MOVI (R323). -/
def execSuMovi (i : SuIssue) (s : State) : Host.Outcome State Fault Refusal := .next (whenUp (suSlot i 2 0x10 (suMovi i)) s)

/-- SU_MOVA (R323). -/
def execSuMova (i : SuIssue) (s : State) : Host.Outcome State Fault Refusal := .next (whenUp (suSlot i 2 0x11 (suMova i)) s)

/-- SU_MOVD (R323). -/
def execSuMovd (i : SuIssue) (s : State) : Host.Outcome State Fault Refusal := .next (whenUp (suSlot i 2 0x12 (suMovd i)) s)

/-- SU_RND (R323). -/
def execSuRnd (i : SuIssue) (s : State) : Host.Outcome State Fault Refusal := .next (whenUp (suSlot i 2 0x13 (suRnd i)) s)

/-- SU_RNDC (R323). -/
def execSuRndc (i : SuIssue) (s : State) : Host.Outcome State Fault Refusal := .next (whenUp (suSlot i 2 0x14 (suRndc i)) s)

/-- SU_ACCLD (R323). -/
def execSuAccld (i : SuIssue) (s : State) : Host.Outcome State Fault Refusal := .next (whenUp (suSlot i 2 0x15 (suAccld i)) s)

/-- SU_CLRACC (R323). -/
def execSuClracc (i : SuIssue) (s : State) : Host.Outcome State Fault Refusal := .next (whenUp (suSlot i 2 0x16 (suClracc i)) s)

/-- SU_LOOP (R327). -/
def execSuLoop (i : SuIssue) (s : State) : Host.Outcome State Fault Refusal := .next (whenUp (suSlot i 2 0x20 (suLoopImm i)) s)

/-- SU_LOOPD (R327). -/
def execSuLoopd (i : SuIssue) (s : State) : Host.Outcome State Fault Refusal := .next (whenUp (suSlot i 2 0x21 (suLoopReg i)) s)

/-- SU_BRA (R326). -/
def execSuBra (i : SuIssue) (s : State) : Host.Outcome State Fault Refusal := .next (whenUp (suSlot i 2 0x22 (suBra i)) s)

/-- SU_RTI (R335). -/
def execSuRti (i : SuIssue) (s : State) : Host.Outcome State Fault Refusal :=
  .next (whenUp (suSlot i 2 0x23 (fun _ => suRti i)) s)

/-- SU_HALT (R329). -/
def execSuHalt (i : SuIssue) (s : State) : Host.Outcome State Fault Refusal :=
  .next (whenUp (suSlot i 2 0x24 (fun _ => suHalt i)) s)

end Sys2Proof.Machine
end

