-- ==== Sys2Proof/Machine/SystemRows.lean ====
section
/-! DEFINITION. The meanings of the rows on start-up, resets, firmware, keys and attestation, and PERST_N. -/

namespace Sys2Proof.Machine

/-- POWER_UP (R539). -/
def execPowerUp (b : BootInputs) (s : State) : Host.Outcome State Fault Refusal := .next (powerUp b s)

/-- MOD_RST_N (R607). -/
def execModRstN (low : Bool) (held : Nat) (b : BootInputs) (s : State) : Host.Outcome State Fault Refusal :=
  .next (modRst low held b s)

/-- PERST_N (R454). -/
def execPerstN (asserted : Bool) (s : State) : Host.Outcome State Fault Refusal := .next (perst asserted s)

/-- COMPUTE_RESET (R555). -/
def execComputeReset (flags : Byte) (b : BootInputs) (s : State) : Host.Outcome State Fault Refusal :=
  .next (whenHost (computeReset flags b) s)

/-- FW_UPDATE (R548). -/
def execFwUpdate (addr : BitVec 64) (img : List Byte) (s : State) : Host.Outcome State Fault Refusal :=
  .next (whenHost (fwUpdate addr img) s)

/-- RECOVERY_LOAD (R549). -/
def execRecoveryLoad (flags : Byte) (addr : BitVec 64) (img : List Byte) (b : BootInputs)
    (s : State) : Host.Outcome State Fault Refusal :=
  .next (whenHost (recoveryLoad flags addr img b) s)

/-- KEY_INSTALL (R552). -/
def execKeyInstall (addr : BitVec 64) (block : List Byte) (s : State) : Host.Outcome State Fault Refusal :=
  .next (whenHost (keyInstall addr block) s)

/-- KEY_REMOVE (R552). -/
def execKeyRemove (addr : BitVec 64) (block : List Byte) (s : State) : Host.Outcome State Fault Refusal :=
  .next (whenHost (keyRemove addr block) s)

/-- ATTEST (R554). -/
def execAttest (addr : BitVec 64) (nonce : List Byte) (resp : BitVec 64) (s : State) : Host.Outcome State Fault Refusal :=
  .next (whenHost (attest addr nonce resp) s)

/-- IDENTITY_READ (R553). -/
def execIdentityRead (addr resp : BitVec 64) (s : State) : Host.Outcome State Fault Refusal :=
  .next (whenHost (identityRead addr resp) s)

end Sys2Proof.Machine
end

