-- ==== Sys2Proof/Machine/TailRows.lean ====
section
/-! DEFINITION. The meanings of the rows on the supply, the clock tick, the PCIe link and the completions that units report. -/

namespace Sys2Proof.Machine

/-- VAUX_LOST (R480). -/
def execVauxLost (s : State) : Host.Outcome State Fault Refusal := .next (vauxLost s)

/-- TIME_UNIT_TICK (R389). -/
def execTimeUnitTick (n : Nat) (s : State) : Host.Outcome State Fault Refusal := .next (whenUp (ticks n) s)

/-- PCIE_LINK_TRAINED (R540). -/
def execPcieLinkTrained (gen : BitVec 3) (width : BitVec 5) (s : State) : Host.Outcome State Fault Refusal :=
  .next (whenUp (pcieTrained gen.toNat width.toNat) s)

/-- HERON_ECC (R533). -/
def execHeronEcc (s : State) : Host.Outcome State Fault Refusal := .next (whenUp heronEcc s)

/-- LPDDR6_REFRESH (R343). -/
def execLpddr6Refresh (channel : BitVec 4) (s : State) : Host.Outcome State Fault Refusal :=
  .next (whenUp (refresh channel.toNat) s)

/-- FLASH_PROGRAM_DONE (R548). -/
def execFlashProgramDone (ok : Bool) (s : State) : Host.Outcome State Fault Refusal := .next (whenUp (flashProgramDone ok) s)

/-- DUTY_SUM_RECOMPUTE_DONE (R524). -/
def execDutySumRecomputeDone (bin : BitVec 13) (s : State) : Host.Outcome State Fault Refusal :=
  .next (whenUp (sumRecomputed bin.toNat) s)

end Sys2Proof.Machine
end

