-- ==== Sys2Proof/Machine/Dispatch.lean ====
section
/-! DEFINITION. One arm per row of spec/opcode_table.json. -/

namespace Sys2Proof.Machine

def exec (i : Instr) (s : State) : Host.Outcome State Fault Refusal :=
  match i with
  | .powerUp b => Sys2Proof.Machine.execPowerUp b s
  | .modRstN low held b => Sys2Proof.Machine.execModRstN low held b s
  | .perstN asserted => Sys2Proof.Machine.execPerstN asserted s
  | .computeReset flags b => Sys2Proof.Machine.execComputeReset flags b s
  | .fwUpdate addr img => Sys2Proof.Machine.execFwUpdate addr img s
  | .recoveryLoad flags addr img b => Sys2Proof.Machine.execRecoveryLoad flags addr img b s
  | .keyInstall addr block => Sys2Proof.Machine.execKeyInstall addr block s
  | .keyRemove addr block => Sys2Proof.Machine.execKeyRemove addr block s
  | .attest addr nonce resp => Sys2Proof.Machine.execAttest addr nonce resp s
  | .identityRead addr resp => Sys2Proof.Machine.execIdentityRead addr resp s
  | .imageLoad seqno addr image => Sys2Proof.Machine.execImageLoad seqno addr image s
  | .jobStart seqno schedule => Sys2Proof.Machine.execJobStart seqno schedule s
  | .jobRunning => Sys2Proof.Machine.execJobRunning s
  | .jobStop seqno => Sys2Proof.Machine.execJobStop seqno s
  | .channelSet seqno addr table => Sys2Proof.Machine.execChannelSet seqno addr table s
  | .paramSet seqno d fh cw hold detAddr det => Sys2Proof.Machine.execParamSet seqno d fh cw hold detAddr det s
  | .step seqno slot leaves joins listAddr => Sys2Proof.Machine.execStep seqno slot leaves joins listAddr s
  | .adaptEnable seqno airClass group => Sys2Proof.Machine.execAdaptEnable seqno airClass group s
  | .adaptDisable seqno airClass group => Sys2Proof.Machine.execAdaptDisable seqno airClass group s
  | .adaptResume seqno airClass group => Sys2Proof.Machine.execAdaptResume seqno airClass group s
  | .headRevert seqno airClass group => Sys2Proof.Machine.execHeadRevert seqno airClass group s
  | .headReset seqno airClass group => Sys2Proof.Machine.execHeadReset seqno airClass group s
  | .jobFault => Sys2Proof.Machine.execJobFault s
  | .jobRestart => Sys2Proof.Machine.execJobRestart s
  | .ingestClose missing => Sys2Proof.Machine.execIngestClose missing s
  | .chan ins => Sys2Proof.Machine.execChan ins s
  | .detect evals hits => Sys2Proof.Machine.execDetect evals hits s
  | .recv ins => Sys2Proof.Machine.execRecv ins s
  | .decode => Sys2Proof.Machine.execDecode s
  | .deliver => Sys2Proof.Machine.execDeliver s
  | .statsCombine => Sys2Proof.Machine.execStatsCombine s
  | .combiningPass => Sys2Proof.Machine.execCombiningPass s
  | .adaptBlock a => Sys2Proof.Machine.execAdaptBlock a s
  | .phaseBarrierRelease => Sys2Proof.Machine.execPhaseBarrierRelease s
  | .deadlineReached => Sys2Proof.Machine.execDeadlineReached s
  | .processingBoundary causes => Sys2Proof.Machine.execProcessingBoundary causes s
  | .counterFoldIdle => Sys2Proof.Machine.execCounterFoldIdle s
  | .softHoldExpiry => Sys2Proof.Machine.execSoftHoldExpiry s
  | .rollbackWatchCheck airClass group => Sys2Proof.Machine.execRollbackWatchCheck airClass group s
  | .stallCheck => Sys2Proof.Machine.execStallCheck s
  | .fence kind unit => Sys2Proof.Machine.execFence kind unit s
  | .decoderFence cluster => Sys2Proof.Machine.execDecoderFence cluster s
  | .decoderPass cluster => Sys2Proof.Machine.execDecoderPass cluster s
  | .decoderPassEnd cluster bad corrected => Sys2Proof.Machine.execDecoderPassEnd cluster bad corrected s
  | .swapEngineServe slice => Sys2Proof.Machine.execSwapEngineServe slice s
  | .swapInDone slot => Sys2Proof.Machine.execSwapInDone slot s
  | .spillDone slot => Sys2Proof.Machine.execSpillDone slot s
  | .ctxPoison slot => Sys2Proof.Machine.execCtxPoison slot s
  | .sessionAdd seqno shortId home headSel ulRing => Sys2Proof.Machine.execSessionAdd seqno shortId home headSel ulRing s
  | .sessionModify seqno shortId home headSel ulRing => Sys2Proof.Machine.execSessionModify seqno shortId home headSel ulRing s
  | .sessionRemove seqno shortId => Sys2Proof.Machine.execSessionRemove seqno shortId s
  | .timeSample seqno addr block => Sys2Proof.Machine.execTimeSample seqno addr block s
  | .sampleTimeout => Sys2Proof.Machine.execSampleTimeout s
  | .holdoverLimit => Sys2Proof.Machine.execHoldoverLimit s
  | .timingUnsafeClear => Sys2Proof.Machine.execTimingUnsafeClear s
  | .timeForceGo v => Sys2Proof.Machine.execTimeForceGo v s
  | .stepMuteEnd => Sys2Proof.Machine.execStepMuteEnd s
  | .timeSnap v => Sys2Proof.Machine.execTimeSnap v s
  | .timeIncrWrite v => Sys2Proof.Machine.execTimeIncrWrite v s
  | .ppsInEdge rising => Sys2Proof.Machine.execPpsInEdge rising s
  | .ppsInLost => Sys2Proof.Machine.execPpsInLost s
  | .ppsOutPulse => Sys2Proof.Machine.execPpsOutPulse s
  | .ppsOutEnd => Sys2Proof.Machine.execPpsOutEnd s
  | .doorbell ring index => Sys2Proof.Machine.execDoorbell ring index s
  | .hostqEnable ring cfg => Sys2Proof.Machine.execHostqEnable ring cfg s
  | .submissionFetch ring slot buf ecc poison => Sys2Proof.Machine.execSubmissionFetch ring slot buf ecc poison s
  | .hostRingPhase ring => Sys2Proof.Machine.execHostRingPhase ring s
  | .dlCommand ring desc body poison => Sys2Proof.Machine.execDlCommand ring desc body poison s
  | .dlHoldExpiry => Sys2Proof.Machine.execDlHoldExpiry s
  | .dlFrameHandover => Sys2Proof.Machine.execDlFrameHandover s
  | .countersDump seqno addr len => Sys2Proof.Machine.execCountersDump seqno addr len s
  | .faultLogDump seqno addr len => Sys2Proof.Machine.execFaultLogDump seqno addr len s
  | .traceDump seqno addr len => Sys2Proof.Machine.execTraceDump seqno addr len s
  | .ethTx index desc frame => Sys2Proof.Machine.execEthTx index desc frame s
  | .evqHeldWrite => Sys2Proof.Machine.execEvqHeldWrite s
  | .coalesceExpiry ring => Sys2Proof.Machine.execCoalesceExpiry ring s
  | .bar4Access offset size a errs => Sys2Proof.Machine.execBar4Access offset size a errs s
  | .registerWrite bar0 offset size a => Sys2Proof.Machine.execRegisterWrite bar0 offset size a s
  | .errClear v => Sys2Proof.Machine.execErrClear v s
  | .traceCtrlWrite clusters v => Sys2Proof.Machine.execTraceCtrlWrite clusters v s
  | .guardMuteClear v => Sys2Proof.Machine.execGuardMuteClear v s
  | .pwrCapWrite v => Sys2Proof.Machine.execPwrCapWrite v s
  | .relinquish => Sys2Proof.Machine.execRelinquish s
  | .take => Sys2Proof.Machine.execTake s
  | .modHeartbeat corrected => Sys2Proof.Machine.execModHeartbeat corrected s
  | .ecpriIqReceive port mac msg => Sys2Proof.Machine.execEcpriIqReceive port mac msg s
  | .ecpriDelayRequest port mac id => Sys2Proof.Machine.execEcpriDelayRequest port mac id s
  | .hostFrameReceive port good frame => Sys2Proof.Machine.execHostFrameReceive port good frame s
  | .lldpReceive port tlv frame => Sys2Proof.Machine.execLldpReceive port tlv frame s
  | .lldpSend port => Sys2Proof.Machine.execLldpSend port s
  | .linkLoss port queued => Sys2Proof.Machine.execLinkLoss port queued s
  | .retrainTimeout port ok => Sys2Proof.Machine.execRetrainTimeout port ok s
  | .linkTrained port ok => Sys2Proof.Machine.execLinkTrained port ok s
  | .laneTrainingAttempt port ok => Sys2Proof.Machine.execLaneTrainingAttempt port ok s
  | .fabricTransit port packet => Sys2Proof.Machine.execFabricTransit port packet s
  | .readReq x => Sys2Proof.Machine.execReadReq x s
  | .readResp x => Sys2Proof.Machine.execReadResp x s
  | .write x => Sys2Proof.Machine.execWrite x s
  | .nack x => Sys2Proof.Machine.execNack x s
  | .combine x => Sys2Proof.Machine.execCombine x s
  | .seqSync x => Sys2Proof.Machine.execSeqSync x s
  | .ackOnly x => Sys2Proof.Machine.execAckOnly x s
  | .flowAckSend node => Sys2Proof.Machine.execFlowAckSend node s
  | .retxTimeout node => Sys2Proof.Machine.execRetxTimeout node s
  | .keepalive port good => Sys2Proof.Machine.execKeepalive port good s
  | .keepaliveSend => Sys2Proof.Machine.execKeepaliveSend s
  | .keepaliveMiss port lockLost => Sys2Proof.Machine.execKeepaliveMiss port lockLost s
  | .ringState port good src brokenE brokenW bypass packet => Sys2Proof.Machine.execRingState port good src brokenE brokenW bypass packet s
  | .pairHbSend => Sys2Proof.Machine.execPairHbSend s
  | .pairHb good src slot role flags => Sys2Proof.Machine.execPairHb good src slot role flags s
  | .pairTakeover => Sys2Proof.Machine.execPairTakeover s
  | .causewayClose => Sys2Proof.Machine.execCausewayClose s
  | .causewayOpen => Sys2Proof.Machine.execCausewayOpen s
  | .bypassForce asserted => Sys2Proof.Machine.execBypassForce asserted s
  | .sluiceCheck x => Sys2Proof.Machine.execSluiceCheck x s
  | .sluiceSecond => Sys2Proof.Machine.execSluiceSecond s
  | .preloadEnd => Sys2Proof.Machine.execPreloadEnd s
  | .selftestFrame defect => Sys2Proof.Machine.execSelftestFrame defect s
  | .clockMonitor alarm => Sys2Proof.Machine.execClockMonitor alarm s
  | .thermTrip => Sys2Proof.Machine.execThermTrip s
  | .sysclkLost => Sys2Proof.Machine.execSysclkLost s
  | .heronLockstep => Sys2Proof.Machine.execHeronLockstep s
  | .moduleStop cause => Sys2Proof.Machine.execModuleStop cause s
  | .railAlarm rail ports queued => Sys2Proof.Machine.execRailAlarm rail ports queued s
  | .quarterLost q => Sys2Proof.Machine.execQuarterLost q s
  | .tmrCompare upsets => Sys2Proof.Machine.execTmrCompare upsets s
  | .scrubRead storage first second => Sys2Proof.Machine.execScrubRead storage first second s
  | .scrubWriteback storage => Sys2Proof.Machine.execScrubWriteback storage s
  | .unitScrub kind unit word flips => Sys2Proof.Machine.execUnitScrub kind unit word flips s
  | .laneSpared link dir lane errors => Sys2Proof.Machine.execLaneSpared link dir lane errors s
  | .powerCapControl estimate => Sys2Proof.Machine.execPowerCapControl estimate s
  | .thermalSensorRead q readings => Sys2Proof.Machine.execThermalSensorRead q readings s
  | .vddcTargetStep q raise => Sys2Proof.Machine.execVddcTargetStep q raise s
  | .vddcChangedClear => Sys2Proof.Machine.execVddcChangedClear s
  | .jtagBypass bits b => Sys2Proof.Machine.execJtagBypass bits b s
  | .jtagSamplePreload levels chain b => Sys2Proof.Machine.execJtagSamplePreload levels chain b s
  | .jtagExtest levels chain => Sys2Proof.Machine.execJtagExtest levels chain s
  | .jtagIdcode b => Sys2Proof.Machine.execJtagIdcode b s
  | .seqNop x => Sys2Proof.Machine.execSeqNop x s
  | .seqEnd x => Sys2Proof.Machine.execSeqEnd x s
  | .streamComplete core => Sys2Proof.Machine.execStreamComplete core s
  | .seqRepeat x => Sys2Proof.Machine.execSeqRepeat x s
  | .seqCallPatch x patch => Sys2Proof.Machine.execSeqCallPatch x patch s
  | .seqWait x => Sys2Proof.Machine.execSeqWait x s
  | .seqBarrier x => Sys2Proof.Machine.execSeqBarrier x s
  | .barrierRelease scope inst num => Sys2Proof.Machine.execBarrierRelease scope inst num s
  | .seqMark x => Sys2Proof.Machine.execSeqMark x s
  | .rtNop x => Sys2Proof.Machine.execRtNop x s
  | .rtFill x => Sys2Proof.Machine.execRtFill x s
  | .rtCopy x => Sys2Proof.Machine.execRtCopy x s
  | .rtSoftmaxRows x => Sys2Proof.Machine.execRtSoftmaxRows x s
  | .rtDeferFix x => Sys2Proof.Machine.execRtDeferFix x s
  | .rtQscale x => Sys2Proof.Machine.execRtQscale x s
  | .rtRescale x => Sys2Proof.Machine.execRtRescale x s
  | .rtCrc24 x => Sys2Proof.Machine.execRtCrc24 x s
  | .rtCrc32Check x => Sys2Proof.Machine.execRtCrc32Check x s
  | .rtHcrc x => Sys2Proof.Machine.execRtHcrc x s
  | .rtScramble x => Sys2Proof.Machine.execRtScramble x s
  | .rtLdpcEnc x => Sys2Proof.Machine.execRtLdpcEnc x s
  | .rtGfskMod x => Sys2Proof.Machine.execRtGfskMod x s
  | .rtLabelBits x => Sys2Proof.Machine.execRtLabelBits x s
  | .rtHeadQuant x => Sys2Proof.Machine.execRtHeadQuant x s
  | .rtCkptSave x => Sys2Proof.Machine.execRtCkptSave x s
  | .rtCkptRestore x => Sys2Proof.Machine.execRtCkptRestore x s
  | .rtBistSpad x => Sys2Proof.Machine.execRtBistSpad x s
  | .rtBistArray x => Sys2Proof.Machine.execRtBistArray x s
  | .rtCheckerTest x fails => Sys2Proof.Machine.execRtCheckerTest x fails s
  | .arrLoad x => Sys2Proof.Machine.execArrLoad x s
  | .arrStream x => Sys2Proof.Machine.execArrStream x s
  | .arrStreamT x => Sys2Proof.Machine.execArrStreamT x s
  | .arrClear x => Sys2Proof.Machine.execArrClear x s
  | .arraySwap core => Sys2Proof.Machine.execArraySwap core s
  | .arrStarve core parity => Sys2Proof.Machine.execArrStarve core parity s
  | .drainStart core => Sys2Proof.Machine.execDrainStart core s
  | .vecChain x => Sys2Proof.Machine.execVecChain x s
  | .vecSideadd x => Sys2Proof.Machine.execVecSideadd x s
  | .descFill x => Sys2Proof.Machine.execDescFill x s
  | .descCopy x => Sys2Proof.Machine.execDescCopy x s
  | .descChain x => Sys2Proof.Machine.execDescChain x s
  | .descCompare x => Sys2Proof.Machine.execDescCompare x s
  | .descPatternWrite x => Sys2Proof.Machine.execDescPatternWrite x s
  | .descPatternCheck x => Sys2Proof.Machine.execDescPatternCheck x s
  | .movGet x => Sys2Proof.Machine.execMovGet x s
  | .movPut x => Sys2Proof.Machine.execMovPut x s
  | .movMcast x => Sys2Proof.Machine.execMovMcast x s
  | .movRingFeed x => Sys2Proof.Machine.execMovRingFeed x s
  | .ringFillStart core ring => Sys2Proof.Machine.execRingFillStart core ring s
  | .ringFillCommit core ring => Sys2Proof.Machine.execRingFillCommit core ring s
  | .moverPacketIssue core queue validBad => Sys2Proof.Machine.execMoverPacketIssue core queue validBad s
  | .moverReadResponse core queue errs host => Sys2Proof.Machine.execMoverReadResponse core queue errs host s
  | .moverWriteAck core queue => Sys2Proof.Machine.execMoverWriteAck core queue s
  | .sigStart x => Sys2Proof.Machine.execSigStart x s
  | .sigXfer x => Sys2Proof.Machine.execSigXfer x s
  | .sigIrq x => Sys2Proof.Machine.execSigIrq x s
  | .suInterruptTaken core => Sys2Proof.Machine.execSuInterruptTaken core s
  | .suTimeout core => Sys2Proof.Machine.execSuTimeout core s
  | .synSet x => Sys2Proof.Machine.execSynSet x s
  | .synAdd x => Sys2Proof.Machine.execSynAdd x s
  | .synSignal x => Sys2Proof.Machine.execSynSignal x s
  | .signalArrival source => Sys2Proof.Machine.execSignalArrival source s
  | .signalDone core => Sys2Proof.Machine.execSignalDone core s
  | .synRingCommit x => Sys2Proof.Machine.execSynRingCommit x s
  | .synRingRelease x => Sys2Proof.Machine.execSynRingRelease x s
  | .suNop x => Sys2Proof.Machine.execSuNop x s
  | .suLdx x => Sys2Proof.Machine.execSuLdx x s
  | .suLdy x => Sys2Proof.Machine.execSuLdy x s
  | .suLdxy x => Sys2Proof.Machine.execSuLdxy x s
  | .suStx x => Sys2Proof.Machine.execSuStx x s
  | .suSty x => Sys2Proof.Machine.execSuSty x s
  | .suLdx16 x => Sys2Proof.Machine.execSuLdx16 x s
  | .suLdy16 x => Sys2Proof.Machine.execSuLdy16 x s
  | .suStx16 x => Sys2Proof.Machine.execSuStx16 x s
  | .suLdc x => Sys2Proof.Machine.execSuLdc x s
  | .suLdxc x => Sys2Proof.Machine.execSuLdxc x s
  | .suMac x => Sys2Proof.Machine.execSuMac x s
  | .suMsu x => Sys2Proof.Machine.execSuMsu x s
  | .suMac2 x => Sys2Proof.Machine.execSuMac2 x s
  | .suCmac x => Sys2Proof.Machine.execSuCmac x s
  | .suCmacc x => Sys2Proof.Machine.execSuCmacc x s
  | .suCmac2 x => Sys2Proof.Machine.execSuCmac2 x s
  | .suCmacd x => Sys2Proof.Machine.execSuCmacd x s
  | .suMpy x => Sys2Proof.Machine.execSuMpy x s
  | .suCmpy x => Sys2Proof.Machine.execSuCmpy x s
  | .suCmag x => Sys2Proof.Machine.execSuCmag x s
  | .suAdd x => Sys2Proof.Machine.execSuAdd x s
  | .suSub x => Sys2Proof.Machine.execSuSub x s
  | .suAddw x => Sys2Proof.Machine.execSuAddw x s
  | .suAdd2 x => Sys2Proof.Machine.execSuAdd2 x s
  | .suSub2 x => Sys2Proof.Machine.execSuSub2 x s
  | .suAnd x => Sys2Proof.Machine.execSuAnd x s
  | .suOr x => Sys2Proof.Machine.execSuOr x s
  | .suXor x => Sys2Proof.Machine.execSuXor x s
  | .suShr x => Sys2Proof.Machine.execSuShr x s
  | .suShl x => Sys2Proof.Machine.execSuShl x s
  | .suMin x => Sys2Proof.Machine.execSuMin x s
  | .suMax x => Sys2Proof.Machine.execSuMax x s
  | .suAbs x => Sys2Proof.Machine.execSuAbs x s
  | .suNeg x => Sys2Proof.Machine.execSuNeg x s
  | .suCmp x => Sys2Proof.Machine.execSuCmp x s
  | .suMovi x => Sys2Proof.Machine.execSuMovi x s
  | .suMova x => Sys2Proof.Machine.execSuMova x s
  | .suMovd x => Sys2Proof.Machine.execSuMovd x s
  | .suRnd x => Sys2Proof.Machine.execSuRnd x s
  | .suRndc x => Sys2Proof.Machine.execSuRndc x s
  | .suAccld x => Sys2Proof.Machine.execSuAccld x s
  | .suClracc x => Sys2Proof.Machine.execSuClracc x s
  | .suLoop x => Sys2Proof.Machine.execSuLoop x s
  | .suLoopd x => Sys2Proof.Machine.execSuLoopd x s
  | .suBra x => Sys2Proof.Machine.execSuBra x s
  | .suRti x => Sys2Proof.Machine.execSuRti x s
  | .suHalt x => Sys2Proof.Machine.execSuHalt x s
  | .vauxLost => Sys2Proof.Machine.execVauxLost s
  | .timeUnitTick n => Sys2Proof.Machine.execTimeUnitTick n s
  | .pcieLinkTrained gen width => Sys2Proof.Machine.execPcieLinkTrained gen width s
  | .heronEcc => Sys2Proof.Machine.execHeronEcc s
  | .lpddr6Refresh channel => Sys2Proof.Machine.execLpddr6Refresh channel s
  | .flashProgramDone ok => Sys2Proof.Machine.execFlashProgramDone ok s
  | .dutySumRecomputeDone bin => Sys2Proof.Machine.execDutySumRecomputeDone bin s

end Sys2Proof.Machine
end

