-- ==== Sys2Proof/Safety.lean ====
section
/-! DEFINITION. What claims call safe: memory and the valid marks in canonical form, the job lock in step with the job state, and a module
that has stopped. -/

namespace Sys2Proof.Machine

/-- The host reaches the module over PCIe (R545). -/
def State.hostUp (s : State) : Bool := s.up && s.heron.pcieUp

/-- The runtime accepts jobs, sessions and downlink commands (R545). -/
def State.ready (s : State) : Bool := s.up && s.heron.pcieUp && decide (8 ≤ s.heron.stage)

/-- Memory stands in its canonical form. -/
def State.memWf (s : State) : Bool := Memory.wf s.sys.mem

/-- The lock is closed exactly while the job is neither absent nor ready (R368). -/
def State.lockAgrees (s : State) : Bool := s.job.lock == !(s.job.state == .noImage || s.job.state == .ready)

/-- Module stop as it stands (R533, R537): latched, Causeway closed, FAULT_N asserted, every host ring disabled. -/
def State.stopped (s : State) : Bool :=
  s.heron.moduleStop && s.pins.bypassState && !s.pins.faultN && (List.range 18).all fun r => !(s.sys.ring r).enabled

/-- Does an address lie in the two EVQ slots that the next entry fills (R447)? -/
def Sys.inEvqEntry (y : Sys) (a : Nat) : Bool :=
  let h := y.ring evq
  decide (h.slotAddr h.modPos ≤ a ∧ a < h.slotAddr h.modPos + 32)
    || decide (h.slotAddr (h.modPos + 1) ≤ a ∧ a < h.slotAddr (h.modPos + 1) + 32)

/-- Is an address outside the slots of the event ring? -/
def Sys.outsideEvq (y : Sys) (a : Nat) : Bool :=
  let h := y.ring evq
  decide (a < hostBase + h.base) || decide (hostBase + h.base + 32 * h.size ≤ a)

/-- `z` is `y` after some entries have been posted, occurrences counted and faults logged: nothing but EVQ's slots and position, what
waits for it, counters, the fault log and what has left the module may differ. -/
def Sys.reports (y z : Sys) : Prop :=
  z = { y with
    mem := z.mem, rings := z.rings, held := z.held, dropped := z.dropped, dropFirst := z.dropFirst, counters := z.counters,
    msixPending := z.msixPending, sent := z.sent, anyFault := z.anyFault, logKept := z.logKept, logRing := z.logRing,
    jobFault := z.jobFault } ∧
  (∀ r, r ≠ evq → z.ring r = y.ring r) ∧
  ((z.ring evq).base = (y.ring evq).base ∧ (z.ring evq).log2 = (y.ring evq).log2) ∧
  ∀ a, y.outsideEvq a = true → z.peek a = y.peek a

/-- Only the memories with their poison and valid marks differ. -/
def Sys.stores (y z : Sys) : Prop :=
  z = { y with mem := z.mem, poison := z.poison, granuleState := z.granuleState, valid := z.valid }

/-- Air time, registers, fences and the MSI-X table stand. -/
def Sys.keepsSetup (y z : Sys) : Prop :=
  z.air = y.air ∧ z.regs = y.regs ∧ z.fences = y.fences ∧ z.msixTable = y.msixTable

/-- Heron, power, pins, JTAG, the Sluice, the time unit and the network stand, and so does the set-up. -/
def State.keepsPlatform (s t : State) : Prop :=
  t.heron = s.heron ∧ t.power = s.power ∧ t.pins = s.pins ∧ t.jtag = s.jtag ∧ t.sluice = s.sluice ∧ t.time = s.time ∧
    t.net = s.net ∧ t.pending = s.pending ∧ s.sys.keepsSetup t.sys

/-- Module stop with no EXTEST selected, whose end would be a reset (R609). -/
def State.stopHolds (s : State) : Bool := s.stopped && s.jtag.instr != some .extest

/-- The commands that are a full reset, a power-up or a loss of supply, or hold the module in full reset (R533, R607, R609). -/
def endsStop : Instr → Bool
  | .powerUp _ | .modRstN _ _ _ | .vauxLost | .jtagExtest _ _ => true
  | _ => false

/-- Commands that act from outside on a stopped module: supply, resets, the pins of the bypass, JTAG, SMBus and the thermal trip,
and accesses to the BARs, of which BAR 0 answers reads in module stop (R533). -/
def outside : Instr → Bool
  | .powerUp _ | .modRstN _ _ _ | .vauxLost | .perstN _ | .bypassForce _ | .causewayClose | .thermTrip | .vddcChangedClear
  | .registerWrite _ _ _ _ | .jtagBypass _ _ | .jtagSamplePreload _ _ _ | .jtagExtest _ _ | .jtagIdcode _ => true
  | _ => false

end Sys2Proof.Machine
end

