-- ==== Sys2Proof/Certificates/Slice0/Obligations.lean ====
section
/-! DEFINITION. The statements about the model, for the provers: each says what a rule of the spec says of the commands it names. -/

open Sys2Proof Sys2Proof.Machine

/-! ### The queue, reset, gates and module stop -/

/-- A step takes the oldest waiting command and is its effect on the state with the queue's rest. With no command waiting, the vector
engines of a running module do their next part and a module that is not up idles (the model's choice, log entries 1, 226). -/
def Obligations.StepTakesOldestCommand : Prop :=
  (∀ (s : State) (c : Instr) (rest : List Instr), step { s with pending := c :: rest } = exec c { s with pending := rest }) ∧
  ∀ s : State, s.pending = [] → step s = .next (if s.up then s.coreClock else s)

/-- Only full reset, power-up or loss of supply leaves module stop, and the cause stays latched (R533): every other command,
whatever it is and whatever state it meets, leaves the module stopped.
The model's own choices in it are those of log entries 12, 174. -/
def Obligations.ModuleStopPersists : Prop :=
  ∀ s t : State, s.stopHolds = true → s.pending.all (fun c => !endsStop c) = true → step s = .next t →
    t.stopHolds = true ∧ t.pending.all (fun c => !endsStop c) = true ∧ t.heron.stopCause = s.heron.stopCause

/-- A module without supply, in full reset or in module stop takes no command but those that act on it from outside.
The model's own choices in it are those of log entries 3, 12, 197. -/
def Obligations.NotUpTakesNothing : Prop :=
  ∀ (c : Instr) (s : State), s.up = false → outside c = false → exec c s = .next s

/-! ### Time base (ch. 13) -/

/-- Air time, registers, counters and everything else stand: only the buffered halves of register accesses may differ. -/
def registersStand (s t : State) : Prop :=
  t.sys = { s.sys with regs := t.sys.regs } ∧ ∀ off, t.sys.reg off = s.sys.reg off

/-- SNAP latches air time and its fraction, GO leaves a forced step pending, and nothing else changes but buffered register
halves (R393, R405). -/
def snapAndForceGoRule : Prop :=
  ∀ (s : State) (v : BitVec 32), s.hostUp = true → v.getLsbD 0 = true →
    (∃ t, exec (.timeSnap v) s = .next t ∧ registersStand s t ∧
      t = { s with
        sys := t.sys,
        time := { s.time with nowNs := (s.sys.air >>> 32).setWidth 64, nowFrac := s.sys.air.setWidth 32 } }) ∧
    ∃ t, exec (.timeForceGo v) s = .next t ∧ registersStand s t ∧
      t = { s with sys := t.sys, time := { s.time with forcePending := true } }

/-- A host write of the increment takes effect within 2.0 ns ± 500 ppm while the servo is off, is refused and counted outside
that range, and is discarded while SERVO_EN is set (R390, R393). -/
def incrementWriteRule : Prop :=
  ∀ (s : State) (v : BitVec 64), s.hostUp = true →
    ∃ t, exec (.timeIncrWrite v) s = .next t ∧ t = { s with sys := t.sys } ∧
      (∀ off, off ≠ 0x050008 → t.sys.reg off = s.sys.reg off) ∧
      (s.sys.regField 0x050000 0 1 = 1 → t.sys.reg 0x050008 = s.sys.reg 0x050008 ∧ t.sys.counters = s.sys.counters) ∧
      (s.sys.regField 0x050000 0 1 = 0 →
        if 0x01FFBE76C9 ≤ v.toNat % 2 ^ 40 ∧ v.toNat % 2 ^ 40 ≤ 0x0200418937 then
          t.sys.reg 0x050008 = v.toNat % 2 ^ 40 ∧ t.sys.counters = s.sys.counters
        else t.sys.reg 0x050008 = s.sys.reg 0x050008 ∧ t.sys.counters = (s.sys.count Cls.TIME_INCR_RANGE).counters)

/-- SNAP, GO and the increment register of the time unit (R390, R393, R405).
The model's own choices in it are those of log entries 12, 142. -/
def Obligations.TimeRegisters : Prop := snapAndForceGoRule ∧ incrementWriteRule

/-- What a change of servo state may touch besides the time unit: registers other than TIME_INCR stand, entries are posted, and a mute
cancels frames that have passed the Sluice. -/
def servoFrame (s t : State) : Prop :=
  t = { s with time := t.time, sys := t.sys, sluice := t.sluice } ∧ Sys.reports { s.sys with regs := t.sys.regs } t.sys ∧
    ∀ off, off ≠ 0x050008 → t.sys.reg off = s.sys.reg off

/-- An occurrence of a class is counted, up to the counter's maximum (R592). -/
def counted (c : Nat) (s t : State) : Prop := natAt t.sys.counters c = min counterMax (natAt s.sys.counters c + 1)

/-- No accepted sample for 1 s in LOCKED enters HOLDOVER, HOLDOVER_LIMIT expired enters UNSAFE and sets TIMING_UNSAFE, each raising
TIME_STATE (R403, R404). -/
def servoTimeoutsRule : Prop :=
  ∀ s : State, s.up = true →
    (s.sys.regField 0x050000 0 1 = 1 → s.time.servo = .locked → s.time.lastAccepted + 1000000000 ≤ s.sys.now →
      ∃ t, exec .sampleTimeout s = .next t ∧ servoFrame s t ∧ counted Cls.TIME_STATE s t ∧
        t.time = { s.time with servo := .holdover, lockCount := 0, holdoverStart := s.sys.now }) ∧
    (s.time.servo = .holdover → s.time.holdoverStart + s.sys.regField 0x050014 0 17 * 1000000000 ≤ s.sys.now →
      ∃ t, exec .holdoverLimit s = .next t ∧ servoFrame s t ∧ counted Cls.TIME_STATE s t ∧
        t.time = { s.time with servo := .lapsed, lockCount := 0, timingUnsafe := true })

/-- TIMING_UNSAFE clears at the first air-time slot boundary after the servo entered LOCKED (R404), and nothing else changes. -/
def timingUnsafeClearsRule : Prop :=
  ∀ s : State, s.up = true → s.time.servo = .locked ∨ s.time.servo = .holdover →
    s.sys.slotOf s.time.lockedAt < s.sys.slotOf s.sys.now →
    exec .timingUnsafeClear s = .next { s with time := { s.time with timingUnsafe := false } }

/-- The Sluice's clock monitor: an alarm mutes, sets TIMING_UNSAFE and moves the servo to UNSAFE, with one GUARD_CLOCK fault at its
beginning; its end lifts the clock mute alone (R404, R521). -/
def clockMonitorMutesRule : Prop :=
  ∀ s : State, s.up = true →
    (∃ t, exec (.clockMonitor true) s = .next t ∧ servoFrame s t ∧ t.sluice.muteClock = true ∧ t.time.timingUnsafe = true ∧
      t.time.servo = .lapsed ∧ t.muted = true ∧ (s.sluice.muteClock = false → counted Cls.GUARD_CLOCK s t)) ∧
    exec (.clockMonitor false) s = .next { s with sluice := { s.sluice with muteClock := false } }

/-- What moves the servo between its states and sets and clears TIMING_UNSAFE: timeouts, the slot boundary after LOCKED, and the Sluice's
clock monitor (R403, R404, R521).
The model's own choices in it are those of log entry 143. -/
def Obligations.ServoStates : Prop := servoTimeoutsRule ∧ timingUnsafeClearsRule ∧ clockMonitorMutesRule

/-! ### Reset, module stop, entries and fault records -/

/-- Every register at its reset value, air time zero, no memory listed, every mute in force, FAULT_N low, MAIN_EN low and the
Causeway closed, no image, no job, no ring enabled, no command waiting (R538, R581, Table 19-1).
The model's own choices in it are those of log entries 8, 9, 218. -/
def Obligations.ResetLeaves : Prop :=
  let s := State.reset
  s.pending = [] ∧ (∀ off, s.sys.reg off = regReset off) ∧ s.sys.now = 0 ∧ s.sys.mem = [] ∧ s.memWf = true ∧
    (∀ c, natAt s.sys.counters c = 0) ∧ (∀ r, (s.sys.ring r).enabled = false) ∧ s.muted = true ∧
    s.time.servo = .free ∧ s.time.timeValid = false ∧ s.time.timingUnsafe = true ∧ s.sluice.released = false ∧
    s.pins.faultN = false ∧ s.pins.mainEn = false ∧ s.pins.bypassState = true ∧ s.pins.thermTripN = true ∧
    s.job.state = .noImage ∧ s.lockAgrees = true ∧ s.heron.stage = 0 ∧ s.heron.stopCause = 0

/-- A command stops the module with cause `n`: Causeway closed, FAULT_N low, every ring disabled, compute reset, MASTER_EN reading
off, a job faulted, what waited dropped; a cause latched before stays. -/
def stopsWith (n : Nat) (c : Instr) (s : State) : Prop :=
  ∃ t, exec c s = .next t ∧ t.stopped = true ∧ t.heron.stopCause = (if s.heron.stopCause = 0 then n else s.heron.stopCause) ∧
    t.up = false ∧ t.masterOn = false ∧ t.cores = [] ∧ t.job.queue = [] ∧ t.job.cfgQueue = [] ∧ t.downlink.held = [] ∧
    (s.job.active = true ∨ s.job.state = .starting → t.job.state = .faulted)

/-- The sources of the stop line and what stops the module at once, each with its cause (R533, R537).
The model's own choices in it are those of log entries 144, 148, 174, 175, 176, 177. -/
def Obligations.StopEstablished : Prop :=
  ∀ s : State, s.up = true →
    stopsWith 1 .heronLockstep s ∧ stopsWith 2 .heronEcc s ∧ stopsWith 3 .sysclkLost s ∧ stopsWith 6 .thermTrip s ∧
    (∀ cause : BitVec 3, 1 ≤ cause.toNat → cause.toNat ≤ 6 → stopsWith cause.toNat (.moduleStop cause) s) ∧
    (s.sys.quarterGone 0 = false → stopsWith 4 (.quarterLost 0) s ∧
      ∀ (rail : BitVec 4) (ports : BitVec 6) (queued : List Nat), rail = 0 ∨ (4 ≤ rail.toNat ∧ rail.toNat ≤ 7) →
        stopsWith 4 (.railAlarm rail ports queued) s)

/-- An entry for EVQ is written at once when nothing waits before it and two slots are free: the record in the second slot, the
envelope in the first, the position two slots on. Else it is held; past 1,024 held events and faults it is dropped and counted
(R447, R448).
The model's own choices in it are those of log entries 28, 215. -/
def Obligations.EventPosting : Prop :=
  ∀ (y : Sys) (e : EvEntry),
    (y.evqOpen = true → y.held = [] → y.dropped = 0 →
      let h := y.ring evq
      let z := y.post e
      z.peekN (h.slotAddr h.modPos) 32 = natToBytes 32 (envelope h.phase e.kind h.seqno e.cls y.now).toNat ∧
        z.peekN (h.slotAddr (h.modPos + 1)) 32 = natToBytes 32 e.record.toNat ∧
        (z.ring evq).modPos = (h.modPos + 2) % h.size ∧ (z.ring evq).seqno = h.seqno + 1 ∧ y.reports z ∧
        z.held = [] ∧ z.counters = y.counters) ∧
    (¬ (y.evqOpen = true ∧ y.held = [] ∧ y.dropped = 0) →
      (e.completion = true ∨ y.heldCount < 1024 → y.post e = { y with held := y.held ++ [e] }) ∧
      (e.completion = false → 1024 ≤ y.heldCount →
        (y.post e).held = y.held ∧ (y.post e).dropped = y.dropped + 1 ∧ (y.post e).mem = y.mem ∧
          natAt (y.post e).counters Cls.EVENT_DROP = min counterMax (natAt y.counters Cls.EVENT_DROP + 1)))

/-- A fault record: its class, unit, core, tag and air time in their fields, kept in Heron's log, counted, ANY_FAULT set, the entry
posted, and a fault of the job remembered for it (R34, R591, R593, Table 15-9).
The air time in it is that of the quarter's own copy (R35).
The model's own choices in it are those of log entries 17, 27, 251. -/
def Obligations.FaultRecord : Prop :=
  ∀ (y : Sys) (cls unit core tag detail : Nat), cls < 2 ^ 16 → unit < 2 ^ 8 → core < 1024 → tag < 2 ^ 16 → cls ≠ Cls.EVENT_DROP →
    let r := faultRecord cls unit core tag (y.airCopy (core / 256 % 4)) detail
    let z := y.fault cls unit core tag detail
    recordField r 0 2 = cls ∧ recordField r 2 1 = unit ∧ recordField r 4 2 = core ∧ recordField r 6 2 = tag ∧
      recordField r 8 8 = y.airCopy (core / 256 % 4) ∧
      y.reports z ∧ z.anyFault = true ∧ natAt z.counters cls = min counterMax (natAt y.counters cls + 1) ∧
      (y.logKept.length < 256 → z.logKept = y.logKept ++ [r] ∧ z.logRing = y.logRing) ∧
      (256 ≤ y.logKept.length → z.logKept = y.logKept ∧ z.logRing.getLast? = some r) ∧
      (jobFaultClass cls = true → z.jobFault = (y.jobFault <|> some r)) ∧
      (jobFaultClass cls = false → z.jobFault = y.jobFault)

/-! ### Ticks, PPS (ch. 13) -/

/-- Each quarter's copy of air time stands within 10 ns of the time unit (R35). -/
def copiesWithin (y : Sys) : Prop := ∀ q, q < 4 → -10 ≤ mapGet zeroInt q y.copies ∧ mapGet zeroInt q y.copies ≤ 10

/-- Each tick adds the increment to air time, the quarters' copies of it staying within 10 ns (R35), and to the Sluice's own count once it is released; a pending forced step is taken at the
first tick: OFFSET is added, a step generation begins, air time is valid, the step mute holds to the end of the third slot from it, FREE
and UNSAFE go to ACQUIRING (R389, R405, R519).
The model's own choices in it are those of log entries 30, 140, 142, 251. -/
def Obligations.TicksAddIncrement : Prop :=
  ∀ s : State, s.up = true →
    (∀ n : Nat, 0 < n → s.time.forcePending = false →
      ∃ t, exec (.timeUnitTick n) s = .next t ∧ copiesWithin t.sys ∧ t = { s with
        sys := { s.sys with air := s.sys.air + BitVec.ofNat 96 (n * s.sys.increment), copies := t.sys.copies, seed := t.sys.seed },
        sluice := if s.sluice.released then { s.sluice with accum := s.sluice.accum + n * s.sys.increment } else s.sluice }) ∧
    (s.time.forcePending = true →
      ∃ t, exec (.timeUnitTick 1) s = .next t ∧ copiesWithin t.sys ∧
        t.sys.air = s.sys.air + BitVec.ofNat 96 s.sys.increment + BitVec.ofInt 96 (toSigned 64 (s.sys.reg 0x050038) * 2 ^ 32) ∧
        t.time.stepGen = s.time.stepGen + 1 ∧ t.time.timeValid = true ∧ t.time.forcePending = false ∧ t.time.lockCount = 0 ∧
        t.time.stepMuteEnd = some ((t.sys.slotOf t.sys.now + 3) * t.sys.slotLen) ∧ t.muted = true ∧
        t.time.servo = (if s.time.servo = .free ∨ s.time.servo = .lapsed then .acquiring else s.time.servo) ∧
        t.rx.slots = [] ∧ (∀ off, t.sys.reg off = s.sys.reg off) ∧ t.heron = s.heron ∧ t.pins = s.pins ∧ t.power = s.power)

/-- The pins and timers of 1PPS and of the step mute, each at its instant, and nothing else (R405, R407, R408). -/
def ppsTimersRule : Prop :=
  ∀ s : State, s.up = true →
    (s.sys.regField 0x050000 2 1 = 1 → s.time.timeValid = true → s.pins.ppsOut = false →
      s.sys.air.toNat % (1000000000 * 2 ^ 32) < s.sys.increment →
      exec .ppsOutPulse s = .next { s with
        pins := { s.pins with ppsOut := true },
        time := { s.time with ppsOutEnd := some (s.sys.now + s.sys.regField 0x050048 0 29) } }) ∧
    (∀ e, s.time.ppsOutEnd = some e → e ≤ s.sys.now →
      exec .ppsOutEnd s = .next { s with pins := { s.pins with ppsOut := false }, time := { s.time with ppsOutEnd := none } }) ∧
    (s.sys.regField 0x050000 1 1 = 1 → s.time.ppsLast.getD 0 + 1500000000 ≤ s.sys.now →
      exec .ppsInLost s = .next { s with time := { s.time with ppsLost := true } }) ∧
    ∀ e, s.time.stepMuteEnd = some e → e ≤ s.sys.now →
      exec .stepMuteEnd s = .next { s with time := { s.time with stepMuteEnd := none } }

/-- The active edge of PPS_IN is stamped with air time less ADJ and raises PPS_IN_EDGE; the other edge does nothing. With the samples
of a source other than PPS, the edge reaches no servo (R408). -/
def ppsEdgeStampsRule : Prop :=
  ∀ (s : State) (rising : Bool), s.up = true →
    ((rising = true ↔ s.sys.regField 0x050000 3 1 = 0) → s.sys.regField 0x050000 1 1 = 0 →
      ∃ stamp : BitVec 64, stamp = BitVec.ofInt 64 ((s.sys.now : Int) - toSigned 32 (s.sys.reg 0x05004C)) ∧
        exec (.ppsInEdge rising) s = .next { s with
          time := { s.time with ppsStamp := stamp, ppsLast := some s.sys.now },
          sys := s.sys.event Cls.PPS_IN_EDGE [(8, 8, stamp.toNat)] }) ∧
    (¬ (rising = true ↔ s.sys.regField 0x050000 3 1 = 0) → exec (.ppsInEdge rising) s = .next s)

/-- The pins and timers of 1PPS and of the step mute, each at its instant, and nothing else (R405, R407, R408). The active edge of PPS_IN
is stamped with air time less ADJ and raises PPS_IN_EDGE; the other edge does nothing. With the samples of a source other than PPS, the
edge reaches no servo (R408).
The model's own choices in it are those of log entries 12, 139. -/
def Obligations.PulsePerSecond : Prop := ppsTimersRule ∧ ppsEdgeStampsRule

/-! ### Supply, resets, PCIe and JTAG (ch. 19, 22) -/

/-- What a full reset or a loss of supply leaves: no job, no image, every register at its reset value, outputs as they rest. -/
def restsAfterReset (s t : State) : Prop :=
  t.up = false ∧ t.job.state = .noImage ∧ (∀ off, t.sys.reg off = regReset off) ∧ t.sys.now = 0 ∧ t.cores = [] ∧ t.image.present = false ∧
    t.pins.faultN = false ∧ t.pins.mainEn = false ∧ t.pins.bypassState = true ∧ t.heron.fuses = s.heron.fuses ∧
    t.heron.keys = s.heron.keys ∧ t.heron.keyEpoch = s.heron.keyEpoch ∧ t.storage.fieldRepair = s.storage.fieldRepair ∧
    t.pending = s.pending ∧
    ∀ a, t.sys.peek a = if hostBase ≤ a then s.sys.peek a else 0

/-- MOD_RST_N low for 1 ms and EXTEST hold a powered module in full reset; a loss of VAUX stops it and clears the stop cause
(R538, R607, R609).
The model's own choices in it are those of log entries 16, 37, 189. -/
def Obligations.FullResetAndSupplyLoss : Prop :=
  ∀ s : State,
    (s.heron.powered = true → ∀ (held : Nat) (b : BootInputs), 1000000 ≤ held →
      ∃ t, exec (.modRstN true held b) s = .next t ∧ restsAfterReset s t ∧ t.heron.inReset = true ∧ t.pins.modRstN = false ∧
        t.heron.stopCause = s.heron.stopCause) ∧
    (s.heron.powered = true → ∀ levels chain : List Bool,
      ∃ t, exec (.jtagExtest levels chain) s = .next t ∧ restsAfterReset s t ∧ t.heron.inReset = true ∧
        t.jtag = { s.jtag with instr := some .extest, captured := levels, latched := chain } ∧
        t.sys.sent = s.sys.sent ++ [.tdo levels]) ∧
    ∃ t, exec .vauxLost s = .next t ∧ restsAfterReset s t ∧ t.heron.powered = false ∧ t.heron.stopCause = 0

/-- Inputs of a start-up that meets no failure up to the Sluice's run. -/
def cleanStart (b : BootInputs) : Prop :=
  b.heronRamOk = true ∧ b.fuseReadOk = true ∧ b.railsIo = 0 ∧ b.comparatorsOk = true ∧ b.railsMain = 0 ∧ b.railsCompute = 0 ∧
    b.heronCheckerFail = false ∧ b.selftestDefect = 0

/-- The power-on order runs to its end when no step fails and the flash holds an image that passes its checks: the release of MOD_RST_N
and the rise of VAUX leave the module up, with the firmware of the flash running, the Sluice released and every working quarter released
from reset; a flash image that fails leaves it in recovery with the reason (R538 to R545, Table 19-2).
The model's own choices in it are those of log entries 10, 16, 32. -/
def Obligations.PowerOnOrder : Prop :=
  ∀ (s : State) (b : BootInputs) (c : Instr), cleanStart b → s.jtag.instr ≠ some .extest →
    (c = .powerUp b ∧ s.pins.modRstN = true) ∨ (∃ held, c = .modRstN false held b ∧ s.heron.powered = true ∧ 1000000 ≤ held) →
    s.heron.flashJob = none →
    ∃ t, exec c s = .next t ∧
      (fwReason s.heron.fuses s.heron.flash = 0 →
        t.up = true ∧ t.heron.stage = 9 ∧ t.heron.recovery = false ∧ t.heron.running = s.heron.flash ∧ t.sluice.released = true ∧
        t.pins.faultN = true ∧ t.pins.mainEn = true ∧ t.sys.fences.released = BitVec.allOnes 4 &&& ~~~t.sys.fences.lost ∧
        s.heron.fuses.svn ≤ t.heron.fuses.svn ∧ fieldAt s.heron.flash 0x0C 4 ≤ t.heron.fuses.svn) ∧
      (fwReason s.heron.fuses s.heron.flash ≠ 0 →
        t.up = true ∧ t.heron.stage = 5 ∧ t.heron.recovery = true ∧
        t.heron.recoveryReason = fwReason s.heron.fuses s.heron.flash ∧ t.sluice.released = false)

/-- PERST_N asserted disables every ring, takes the link down and drops what waited; released, it changes its pin alone; the link then
trains, and below Gen4 x8 that is reported (R454, R540). -/
def pcieLinkRule : Prop :=
  ∀ s : State,
    (∃ t, exec (.perstN true) s = .next t ∧ t.heron = { s.heron with pcieUp := false } ∧ t.pins = { s.pins with perstN := false } ∧
      (∀ r, r < 18 → (t.sys.ring r).enabled = false) ∧ t.job.queue = [] ∧ t.job.cfgQueue = [] ∧ t.downlink.held = [] ∧
      t.job.stopQuiet = (s.job.stopQuiet || s.job.state == .running || s.job.state == .starting) ∧ t.sys.msixPending = 0 ∧
      t.sys.fences = s.sys.fences ∧ t.sys.air = s.sys.air ∧ t.time = s.time ∧ t.sluice = s.sluice) ∧
    exec (.perstN false) s = .next { s with pins := { s.pins with perstN := true } } ∧
    (s.up = true → s.pins.perstN = true → 3 ≤ s.heron.stage → ∀ (gen : BitVec 3) (width : BitVec 5),
      exec (.pcieLinkTrained gen width) s = .next { s with
        heron := { s.heron with pcieUp := true, pcieGen := gen.toNat, pcieWidth := width.toNat },
        sys := if gen.toNat < 4 ∨ width.toNat < 8 then
            s.sys.event Cls.PCIE_DEGRADED [(2, 1, gen.toNat), (3, 1, width.toNat)]
          else s.sys })

/-- BYPASS delays TDI by one bit, SAMPLE/PRELOAD shifts out the pins' levels and keeps the chain shifted in, IDCODE shifts out stepping,
0x6400, the manufacturer and a one; none disturbs a module that EXTEST does not hold (R609). -/
def jtagShiftsRule : Prop :=
  ∀ (s : State) (b : BootInputs), s.heron.powered = true → s.jtag.instr ≠ some .extest →
    (∀ bits : List Bool, exec (.jtagBypass bits b) s = .next { s with
      jtag := { s.jtag with instr := some .bypass, bypass := bits.getLast?.getD false },
      sys := { s.sys with sent := s.sys.sent ++ [.tdo ((false :: bits).dropLast)] } }) ∧
    (∀ levels chain : List Bool, exec (.jtagSamplePreload levels chain b) s = .next { s with
      jtag := { s.jtag with instr := some .samplePreload, captured := levels, latched := chain },
      sys := { s.sys with sent := s.sys.sent ++ [.tdo levels] } }) ∧
    ∃ code : BitVec 32, code.toNat % 2 = 1 ∧ code.toNat / 2 ^ 12 % 2 ^ 16 = 0x6400 ∧
      code.toNat / 2 ^ 28 = s.heron.fuses.stepping.toNat % 16 ∧ code.toNat / 2 % 2 ^ 11 = Config.jedecCode.toNat ∧
      exec (.jtagIdcode b) s = .next { s with
        jtag := { s.jtag with instr := some .idcode },
        sys := { s.sys with sent := s.sys.sent ++ [.tdo ((List.range 32).map fun i => code.getLsbD i)] } }

/-- PERST_N asserted disables every ring, takes the link down and drops what waited; released, it changes its pin alone; the link then
trains, and below Gen4 x8 that is reported (R454, R540). BYPASS delays TDI by one bit, SAMPLE/PRELOAD shifts out the pins' levels and
keeps the chain shifted in, IDCODE shifts out stepping, 0x6400, the manufacturer and a one; none disturbs a module that EXTEST does not
hold (R609).
The model's own choices in it are those of log entries 90, 187, 188, 189. -/
def Obligations.PcieAndJtag : Prop := pcieLinkRule ∧ jtagShiftsRule

/-! ### The mailbox: firmware, compute reset, keys, attestation (ch. 19) -/

/-- Registers other than the mailbox's CMD, ADDR and LEN stand. -/
def mailboxFrame (s t : State) : Prop :=
  ∀ off, off ≠ 0x010000 → off ≠ 0x010008 → off ≠ 0x010010 → t.sys.reg off = s.sys.reg off

/-- No mailbox command is in progress and none has been started. -/
def mailboxFree (s : State) : Prop := s.heron.mbxBusy = false ∧ s.heron.mbxStarted = 0

/-- A core that runs no stream and holds nothing but program memory of its Signal Unit. -/
def freshCore (k : Core) : Prop := k = { su := { c := k.su.c } }

/-- A mailbox command has completed: its status and reason, BUSY only while flash is being programmed, one HERON_MBX_DONE counted. -/
def mailboxDone (status reason : Nat) (s t : State) : Prop :=
  t.heron.mbxStatus = status ∧ t.heron.mbxReason = reason ∧ t.heron.mbxBusy = t.heron.flashJob.isSome ∧ counted Cls.HERON_MBX_DONE s t

/-- FW_UPDATE of an image that passes its checks begins to erase and program the flash; one that fails is REJECTED with the check's
number and the flash stands; the end of programming answers 0, or REJECTED with reason 6 and no valid image (R544, R548, R550). -/
def firmwareUpdateRule : Prop :=
  ∀ s : State,
    (s.hostUp = true → mailboxFree s → s.heron.recovery = false →
      ∀ (addr : BitVec 64) (img : List Byte), hostRange addr.toNat img.length = true →
        ∃ t, exec (.fwUpdate addr img) s = .next t ∧ mailboxFrame s t ∧ t = { s with sys := t.sys, heron := t.heron } ∧
          t.sys.regField 0x010000 0 8 = 1 ∧ t.sys.reg 0x010008 = addr.toNat ∧
          (fwReason s.heron.shadow img = 0 →
            t.heron = { s.heron with flash := [], flashJob := some (img.take (fieldAt img 0x10 8)), mbxBusy := true, mbxCmd := 1 } ∧
              t.sys.counters = s.sys.counters ∧ t.sys.mem = s.sys.mem) ∧
          (fwReason s.heron.shadow img ≠ 0 →
            mailboxDone 5 (fwReason s.heron.shadow img) s t ∧ t.heron.flash = s.heron.flash ∧
              t.heron.running = s.heron.running)) ∧
    (s.up = true → ∀ img, s.heron.flashJob = some img → ∀ ok : Bool,
      ∃ t, exec (.flashProgramDone ok) s = .next t ∧ t = { s with sys := t.sys, heron := t.heron } ∧ s.sys.reports t.sys ∧
        mailboxDone (if ok then 0 else 5) (if ok then 0 else 6) s t ∧ t.heron.flashJob = none ∧
        t.heron.flash = (if ok then img else []) ∧ t.heron.running = s.heron.running)

/-- RECOVERY_LOAD in recovery runs an image that passes its checks and finishes start-up with it; with FLAGS bit 0 clear the flash
stands; an image that fails leaves the module in recovery (R549). -/
def recoveryLoadRule : Prop :=
  ∀ (s : State) (flags : Byte) (addr : BitVec 64) (img : List Byte) (b : BootInputs),
    s.hostUp = true → mailboxFree s → s.heron.recovery = true → 5 ≤ s.heron.stage →
    hostRange addr.toNat img.length = true →
    ∃ t, exec (.recoveryLoad flags addr img b) s = .next t ∧
      (fwReason s.heron.shadow img = 0 →
        t.heron.stage = 9 ∧ t.heron.recovery = false ∧ t.heron.running = img.take (fieldAt img 0x10 8) ∧ t.sluice.released = true ∧
        (flags.getLsbD 0 = false → t.heron.flash = s.heron.flash ∧ t.heron.mbxStatus = 0 ∧ t.heron.mbxReason = 0) ∧
        (flags.getLsbD 0 = true → t.heron.flash = [] ∧ t.heron.flashJob = some (img.take (fieldAt img 0x10 8)) ∧
          t.heron.mbxBusy = true)) ∧
      (fwReason s.heron.shadow img ≠ 0 →
        mailboxDone 5 (fwReason s.heron.shadow img) s t ∧ mailboxFrame s t ∧ t.heron.recovery = true ∧
        t.heron.recoveryReason = fwReason s.heron.shadow img ∧ t.heron.stage = s.heron.stage)

/-- FW_UPDATE of an image that passes its checks begins to erase and program the flash; one that fails is REJECTED with the check's number
and the flash stands; the end of programming answers 0, or REJECTED with reason 6 and no valid image (R544, R548, R550). RECOVERY_LOAD in
recovery runs an image that passes its checks and finishes start-up with it; with FLAGS bit 0 clear the flash stands; an image that fails
leaves the module in recovery (R549).
The model's own choices in it are those of log entries 32, 37, 42, 43. -/
def Obligations.FirmwareImages : Prop := firmwareUpdateRule ∧ recoveryLoadRule

/-- COMPUTE_RESET ends any job, clears the cores, decoders, bursts and the contents of scratchpads and Peat, and keeps what the compute
side does not hold: air time, the Sluice, the time unit, the network, registers, flash and keys; the job is READY with
an image, NO_IMAGE without (R31, R555).
The model's own choices in it are those of log entries 39, 41, 42. -/
def Obligations.ComputeResetClears : Prop :=
  ∀ (s : State) (flags : Byte) (b : BootInputs), s.hostUp = true → mailboxFree s → flags.getLsbD 0 = false →
    s.job.state ≠ .noImage → s.job.state ≠ .starting → s.job.queue = [] → s.job.cfgQueue = [] →
    ∃ t, exec (.computeReset flags b) s = .next t ∧ t.job.state = (if t.image.present then .ready else .noImage) ∧
      t.job.lock = false ∧ (∀ c, freshCore (t.core c)) ∧ t.decoders = [] ∧ t.rx.bursts = [] ∧ t.downlink.held = [] ∧
      (∀ a, computeAddress a = true → t.sys.peek a = 0) ∧ t.sys.air = s.sys.air ∧ t.time = s.time ∧ t.sluice = s.sluice ∧
      t.net = s.net ∧ t.pins = s.pins ∧ mailboxFrame s t ∧ t.heron.mbxStatus = 0 ∧ t.heron.mbxReason = 0 ∧
      t.heron.flash = s.heron.flash ∧ t.heron.keys = s.heron.keys ∧ t.heron.running = s.heron.running ∧ t.job.schedule = s.job.schedule

/-- An authorised change of the secure store installs or removes the key of the slot, leaves the other slots, and raises the key epoch; one
for another epoch or without the signature it needs is REJECTED with reason 5 and changes no key (R552). -/
def keyChangeRule : Prop :=
  ∀ (s : State) (addr : BitVec 64) (block : List Byte) (install : Bool), s.hostUp = true → mailboxFree s →
    s.heron.recovery = false → hostRange addr.toNat 0x149D = true → fieldAt block 0 1 ≤ 3 → fieldAt block 1 3 = 0 → fieldAt block 9 7 = 0 →
    (install = false → ∀ i, i < 1952 → block.getD (16 + i) 0 = 0) →
    ∃ t, exec (if install then .keyInstall addr block else .keyRemove addr block) s = .next t ∧ mailboxFrame s t ∧
      t = { s with sys := t.sys, heron := t.heron } ∧
      (fieldAt block 4 4 = s.heron.keyEpoch.toNat → keyAuthorised s block = true →
        mailboxDone 0 0 s t ∧ t.heron.keyEpoch = s.heron.keyEpoch + 1 ∧
        mapGet (fun _ => []) (fieldAt block 0 1) t.heron.keys =
          (if install then (List.range 1952).map fun i => block.getD (16 + i) 0 else []) ∧
        ∀ k, k ≠ fieldAt block 0 1 → mapGet (fun _ => []) k t.heron.keys = mapGet (fun _ => []) k s.heron.keys) ∧
      (¬ (fieldAt block 4 4 = s.heron.keyEpoch.toNat ∧ keyAuthorised s block = true) →
        mailboxDone 5 5 s t ∧ t.heron.keyEpoch = s.heron.keyEpoch ∧ t.heron.keys = s.heron.keys)

/-- ATTEST answers the report with the host's nonce, signed with the identity key, and IDENTITY_READ the identity key and its certificate,
each at the response address; EVQ's own slots apart, no other byte changes (R553, R554). -/
def attestAndIdentityRule : Prop :=
  ∀ (s : State) (addr resp : BitVec 64), s.hostUp = true → mailboxFree s →
    (∀ nonce : List Byte, s.heron.recovery = false → hostRange addr.toNat 40 = true → hostRange resp.toNat (0x120 + 4096) = true →
      let body := attestBody nonce s
      let out := body ++ signatureBlock (Config.identitySign s.heron.identityKey (natToBytes 64 (Config.shake256 body).toNat))
      ∃ t, exec (.attest addr nonce resp) s = .next t ∧ mailboxDone 0 0 s t ∧ mailboxFrame s t ∧
        t = { s with sys := t.sys, heron := t.heron } ∧
        ∀ a, s.sys.outsideEvq a = true →
          t.sys.peek a = if hostBase + resp.toNat ≤ a ∧ a < hostBase + resp.toNat + out.length
            then out.getD (a - (hostBase + resp.toNat)) 0 else s.sys.peek a) ∧
    ∀ out, out = s.heron.identityKey ++ s.heron.identityCert → hostRange addr.toNat 8 = true → hostRange resp.toNat out.length = true →
      ∃ t, exec (.identityRead addr resp) s = .next t ∧ mailboxDone 0 0 s t ∧ mailboxFrame s t ∧
        t = { s with sys := t.sys, heron := t.heron } ∧
        ∀ a, s.sys.outsideEvq a = true →
          t.sys.peek a = if hostBase + resp.toNat ≤ a ∧ a < hostBase + resp.toNat + out.length
            then out.getD (a - (hostBase + resp.toNat)) 0 else s.sys.peek a

/-- An authorised change of the secure store installs or removes the key of the slot, leaves the other slots, and raises the key epoch;
one for another epoch or without the signature it needs is REJECTED with reason 5 and changes no key (R552). ATTEST answers the report
with the host's nonce, signed with the identity key, and IDENTITY_READ the identity key and its certificate, each at the response address;
EVQ's own slots apart, no other byte changes (R553, R554).
The model's own choices in it are those of log entries 14, 15, 42, 44. -/
def Obligations.KeysAndIdentity : Prop := keyChangeRule ∧ attestAndIdentityRule

/-! ### Job control (ch. 4, 12) -/

/-- JOBQ and CFGQ are read at once: no job processes slots, or a stepped job is between two steps; and nothing waits in them
(R372, R373, R384). -/
def readsNow (s : State) : Prop :=
  s.ready = true ∧ s.job.queue = [] ∧ s.job.cfgQueue = [] ∧ (s.job.active = false ∨ s.halted = true)

/-- A job-control or session command whose status is posted: the state `u` of its effect, and one COMPLETION. -/
def completed (ring opcode : Nat) (seqno : BitVec 16) (status reason : Nat) (u t : State) : Prop :=
  t = { u with sys := u.sys.completion Cls.COMPLETION ring opcode seqno.toNat status reason 0 }

/-- While a job processes slots, job-control commands wait in the order of their ring, and nothing else changes (R372).
The model's own choices in it are those of log entries 11, 60. -/
def Obligations.JobCommandsWait : Prop :=
  ∀ s : State, s.ready = true → s.job.active = true → s.halted = false →
    let waits (c : Instr) (q : JobCmd) : Prop := exec c s = .next { s with job := { s.job with queue := s.job.queue ++ [q] } }
    (∀ n a img, waits (.imageLoad n a img) (.imageLoad n a img)) ∧
    (∀ n es, waits (.jobStart n es) (.jobStart n es)) ∧
    (∀ n, waits (.jobStop n) (.jobStop n)) ∧
    (∀ n a cs, waits (.channelSet n a cs) (.channelSet n a cs)) ∧
    (∀ n d fh cw hold a ds, waits (.paramSet n d fh cw hold a ds) (.paramSet n d fh cw hold a ds)) ∧
    (∀ n k ls js a, waits (.step n k ls js a) (.step n k ls js a)) ∧
    ∀ n ac g, waits (.adaptEnable n ac g) (.adapt 0x10 n ac g) ∧ waits (.adaptDisable n ac g) (.adapt 0x11 n ac g) ∧
      waits (.adaptResume n ac g) (.adapt 0x12 n ac g) ∧ waits (.headRevert n ac g) (.adapt 0x13 n ac g) ∧
      waits (.headReset n ac g) (.adapt 0x14 n ac g)

/-- IMAGE_LOAD copies the image into the half that is free, checks it there, and on success makes it resident and the job READY; a failed
check is rejected with its number and the resident image stands; heads are kept only for the same digest (R118, R119, R120, R151).
The model's own choices in it are those of log entries 11, 38. -/
def Obligations.ImageLoad : Prop :=
  ∀ (s : State) (seqno : BitVec 16) (addr : BitVec 64) (image : List Byte), readsNow s → s.job.state = .noImage ∨ s.job.state = .ready →
    hostRange addr.toNat image.length = true →
    let c := withCandidate image s
    ∃ t, exec (.imageLoad seqno addr image) s = .next t ∧ s.keepsPlatform t ∧ counted Cls.COMPLETION s t ∧ t.cores = s.cores ∧
      (imageCheck c image.length = 0 →
        t.job = { s.job with state := .ready } ∧ t.image.present = true ∧ t.image.half = s.freeHalf ∧
        t.image.length = image.length ∧ t.image.digest = imageDigest c ∧
        (∀ a, stagingBase s.freeHalf ≤ a → a < stagingBase s.freeHalf + (image.take (2 ^ 28)).length →
          t.sys.peek a = image.getD (a - stagingBase s.freeHalf) 0) ∧
        (s.image.digest ≠ imageDigest c → t.adapt = {})) ∧
      (imageCheck c image.length ≠ 0 → t.job = s.job ∧ t.image = s.image ∧ t.adapt = s.adapt ∧ counted Cls.IMAGE_REJECT s t)

/-- What an accepted start leaves in STARTING: the lock, the deadlines of the registers, no burst, no stream, no job fault. -/
def starting (seq : Option (BitVec 16)) (s t : State) : Prop :=
  t.job.state = .starting ∧ t.job.lock = true ∧ t.job.startSeq = seq ∧ t.sys.quarterSet = some t.job.qset ∧
    t.job.deadline = s.sys.regField 0x080028 0 16 ∧ t.job.deadlineNext = t.job.deadline ∧
    t.job.fhMaxDelay = s.sys.regField 0x080028 16 16 ∧ t.job.combineWait = s.sys.regField 0x08002C 0 16 ∧
    t.job.softHold = s.sys.regField 0x08002C 16 10 ∧ t.job.prevRatio = 256 ∧ t.rx.bursts = [] ∧ t.sys.jobFault = none ∧
    (∀ c, (t.core c).stream = none) ∧ t.heron = s.heron ∧ t.sluice = s.sluice ∧ t.time = s.time ∧ (∀ off, t.sys.reg off = s.sys.reg off)

/-- JOB_START, and Heron's restart of a job that a lost quarter faulted: set-up that fails its checks is refused with JOB_CONFIG_INVALID
and leaves the job's state; lost quarters without a quarter set raise JOB_NO_MAPPING; a start whose programs reach absent cores
fails; else the job is STARTING with the lock closed (R133, R371, R377, R580).
The model's own choices in it are those of log entries 46, 47, 48, 52, 53, 55, 56. -/
def Obligations.JobStart : Prop :=
  ∀ (s : State) (c : Instr) (seq : Option (BitVec 16)) (given : List (BitVec 128)) (u : State),
    (readsNow s ∧ (s.job.state = .ready ∨ s.job.state = .faulted) ∧ u = s ∧ ∃ n, c = .jobStart n given ∧ seq = some n) ∨
    (s.up = true ∧ s.job.state = .faulted ∧ s.job.restartEvent = true ∧ seq = none ∧ given = s.job.schedule ∧ c = .jobRestart ∧
      let q := s.sys.lostMask
      let lost := if q.testBit 1 then 1 else if q.testBit 2 then 2 else 3
      u = keepHeads { s with
        job := { s.job with lostQuarters := BitVec.ofNat 4 q },
        sessions := { s.sessions with unmirrored := some (unmirrored s.sys lost, lost) } }) →
    let r := replayStart s given
    ∃ t, exec c s = .next t ∧
      (¬ (s.setupOk = true ∧ channelsOk s s.job.channels = true ∧ r.1 = true) →
        t.job = u.job ∧ counted Cls.JOB_CONFIG_INVALID s t ∧ t.cores = s.cores ∧ t.rx = s.rx ∧ s.keepsPlatform t) ∧
      (s.setupOk = true → channelsOk s s.job.channels = true → r.1 = true →
        (s.sys.quarterSet = none → t.job.state = .faulted ∧ t.job.lock = true ∧ counted Cls.JOB_NO_MAPPING s t) ∧
        ∀ q, s.sys.quarterSet = some q →
          let s1 := fhCapacity (startState seq r.2 q u)
          (s1.badRelocation ≠ none → t.job.state = .faulted) ∧
          (s1.badRelocation = none →
            (programSections s1).any (fun e => s1.sys.poisoned (stagingBase s1.image.half + e.1) e.2) = false → starting seq s t))

/-- STARTING becomes RUNNING: the first slot is the first to begin from now on, its samples are awaited, JOB_RUNNING is raised (R371).
The model's own choices in it are those of log entry 55. -/
def Obligations.JobRunning : Prop :=
  ∀ s : State, s.up = true → s.job.state = .starting → s.sys.jobFault = none → s.job.replayActive = false →
    let n := s.sys.slotOf s.sys.now + 1
    ∃ t, exec .jobRunning s = .next t ∧ t.job.state = .running ∧ t.job.firstSlot = n ∧ t.job.startSeq = none ∧ t.job.lock = s.job.lock ∧
      t.rx.next = n ∧ t.rx.slots = [] ∧ (s.stepped = false → t.job.slot = n ∧ t.job.phase = .ingest ∧ t.job.fallback = false) ∧
      counted Cls.JOB_RUNNING s t ∧ s.keepsPlatform t ∧ t.cores = s.cores

/-- JOB_STOP of a stepped job between steps and of a faulted job makes it READY with the lock open; a fault record that waits makes a job
FAULTED, abandons its streams and bursts, and ends what it held (R375, R376).
The model's own choices in it are those of log entries 59, 67. -/
def Obligations.JobStopAndFault : Prop :=
  ∀ s : State,
    (∀ seqno : BitVec 16, readsNow s → s.halted = true ∧ s.job.state = .running ∨ s.job.state = .faulted →
      ∃ t, exec (.jobStop seqno) s = .next t ∧ t.job.state = .ready ∧ t.job.lock = false ∧ t.job.batch = [] ∧ t.job.stepNow = none ∧
        t.job.replayActive = false ∧ (∀ c, (t.core c).stream = none) ∧
        (s.job.state = .running → t.rx.bursts.all (fun b => !b.active) = true ∧ t.downlink.held = []) ∧ s.keepsPlatform t) ∧
    (∀ r, s.up = true → s.sys.jobFault = some r → s.job.active = true ∨ s.job.state = .starting → s.job.queue = [] →
      s.job.cfgQueue = [] →
      ∃ t, exec .jobFault s = .next t ∧ t.job.state = .faulted ∧ t.job.lock = s.job.lock ∧ t.job.startSeq = none ∧ t.rx.bursts = [] ∧
        t.rx.held = [] ∧ t.decoders = [] ∧ t.downlink.held = [] ∧ t.sys.jobFault = none ∧ (∀ c, (t.core c).stream = none) ∧
        counted Cls.JOB_FAULT s t ∧ s.keepsPlatform t)

/-- CHANNEL_SET replaces the channel table and discards the bursts and frames of channels that go; PARAM_SET changes each parameter that is
not zero; either is refused whole when a rule is broken (R40, R374).
The model's own choices in it are those of log entries 47, 56. -/
def Obligations.JobParameters : Prop :=
  ∀ (s : State) (seqno : BitVec 16), readsNow s → s.halted = true →
    (∀ (addr : BitVec 64) (table : List (BitVec 64)), hostRange addr.toNat (8 * table.length) = true →
      (channelsOk s (table.map parseChannel) = true →
        ∃ t, exec (.channelSet seqno addr table) s = .next t ∧ s.keepsPlatform t ∧
          t.job = { s.job with channels := table.map parseChannel } ∧
          (∀ b ∈ t.rx.bursts, b.active = true → ∃ c ∈ table.map parseChannel, c.id = b.channel) ∧
          ∀ f ∈ t.downlink.held, (!f.anchored || f.released) = true → ∃ c ∈ table.map parseChannel, c.id = f.channel) ∧
      (channelsOk s (table.map parseChannel) = false →
        exec (.channelSet seqno addr table) s = .next (rejectInvalid s 0x04 seqno))) ∧
    (s.job.state = .running → ∀ d fh cw hold : BitVec 16,
      let pick (v : BitVec 16) (old : Nat) : Nat := if v = 0 then old else v.toNat
      let j : Job := { s.job with
        deadlineNext := pick d s.job.deadlineNext, fhMaxDelay := pick fh s.job.fhMaxDelay,
        combineWait := pick cw s.job.combineWait, softHold := pick hold s.job.softHold }
      let fits := deadlinesOk s.sys.slotLen j.deadlineNext j.fhMaxDelay j.combineWait && softHoldOk j.softHold
        && (List.range 12).all fun a => detOk (mapGet detDefault a s.job.det)
      ∃ t, exec (.paramSet seqno d fh cw hold 0 []) s = .next t ∧
        (fits = true → completed 0 0x05 seqno 0 0 { s with job := j } t) ∧
        (fits = false → t = rejectInvalid s 0x05 seqno))

/-- STEP names the slot to process: it becomes the slot in progress, and one that does not follow the last step's, or whose samples are not
in the slot buffer, is refused (R384, R385, R386).
The model's own choices in it are those of log entries 54, 60, 66, 211. -/
def Obligations.StepTakesSlot : Prop :=
  ∀ (s : State) (seqno : BitVec 16) (slot : BitVec 48) (leaves joins : List (BitVec 20)) (addr : BitVec 64), readsNow s →
    s.halted = true → s.job.state = .running → s.job.replayActive = false → leaves.length ≤ 8192 → joins.length ≤ 8192 →
    hostRange addr.toNat (4 * (leaves.length + joins.length)) = true → s.job.noAckBefore ≤ slot.toNat * s.sys.slotLen →
    (∀ l, s.job.lastStep = some l → slot.toNat ≤ l → exec (.step seqno slot leaves joins addr) s = .next (jobDone s 0x06 seqno 2 0)) ∧
    ((∀ l, s.job.lastStep = some l → l < slot.toNat) →
      (slot.toNat < s.rx.next → s.rx.slots.contains slot.toNat = false →
        exec (.step seqno slot leaves joins addr) s = .next (jobDone s 0x06 seqno 4 0)) ∧
      (s.rx.next ≤ slot.toNat →
        ∃ t, exec (.step seqno slot leaves joins addr) s = .next t ∧ t.job.slot = slot.toNat ∧ t.job.phase = .ingest ∧
          t.job.lastStep = some slot.toNat ∧ (∃ d, t.job.stepNow = some
            { seqno := seqno, slot := slot.toNat, detail := d, leaves := leaves, joins := joins, listAddr := addr }) ∧
          t.job.fallback = false ∧ t.job.suppressed = false ∧ t.job.state = .running ∧ s.keepsPlatform t))

/-- A head command on a listed group of a running job: ENABLE and DISABLE, RESUME, RESET to the shipped head, REVERT to the previous head;
DISABLE, RESET and REVERT of a group that is not adapting, REVERT without a previous head, and ENABLE of a group that is not listed answer
NOT_APPLICABLE and change no group (R149, R150).
The model's own choices in it are those of log entries 94, 95, 96. -/
def Obligations.HeadCommands : Prop :=
  ∀ (s : State) (seqno : BitVec 16) (ac group : Byte), readsNow s → s.halted = true → s.job.state = .running → ac.toNat < 12 →
    group.toNat < 16 →
    let k := adaptKey ac.toNat group.toNat
    let g := s.headGroup k
    let done (j : State) : State := { j with job := { j.job with headDone := j.job.headDone ++ [k] } }
    (s.listedGroups.contains k = true →
      (∃ t, exec (.adaptEnable seqno ac group) s = .next t ∧ completed 0 0x10 seqno 0 0 (s.setHeadGroup k { g with disabled := false }) t) ∧
      (∃ t, exec (.adaptDisable seqno ac group) s = .next t ∧ completed 0 0x11 seqno (if g.disabled || g.suspended then 1 else 0) 0
        (if g.disabled || g.suspended then s else s.setHeadGroup k { g with disabled := true }) t) ∧
      (∃ t, exec (.adaptResume seqno ac group) s = .next t ∧
        completed 0 0x12 seqno 0 0 (s.setHeadGroup k { g with suspended := false, rollbacks := [] }) t) ∧
      (∃ t, exec (.headReset seqno ac group) s = .next t ∧
        completed 0 0x14 seqno (if s.adapting k then 0 else 1) 0 (if s.adapting k then done ((s.setHeadGroup k
          { g with active := {}, previous := none, candidate := none, watch := none, rollbackDue := false }).onSys
            fun y => y.copyHead k .shipped .active) else s) t) ∧
      (g.previous = none ∨ s.adapting k = false →
        ∃ t, exec (.headRevert seqno ac group) s = .next t ∧ completed 0 0x13 seqno 1 0 s t) ∧
      (∀ p, g.previous = some p → s.adapting k = true → ∃ t, exec (.headRevert seqno ac group) s = .next t ∧ (t.headGroup k).active = p ∧
        (t.headGroup k).previous = none ∧ (t.headGroup k).candidate = none ∧ (t.headGroup k).watch = none ∧
        counted Cls.HEAD_ROLLBACK s t ∧ t.job = { s.job with headDone := s.job.headDone ++ [k] } ∧
        ∀ k', k' ≠ k → t.headGroup k' = s.headGroup k')) ∧
    (s.listedGroups.contains k = false →
      ∃ t, exec (.adaptEnable seqno ac group) s = .next t ∧ completed 0 0x10 seqno 1 0 s t)

/-- Field adaptation in slack time: a block trains the candidate's masters up to STEPS, where a head that deviates too far is rejected and
another is quantised into the bank; poison, fewer payloads decoded or a loss that falls by less than the margin rejects it in validation,
else it is validated; and a passed watch second is noted, a rate below the baseline making a rollback due (R79, R142, R144, R147).
The model's own choices in it are those of log entries 73, 98, 100, 228, 229, 245, 247, 248, 254. -/
def Obligations.AdaptBlockAndWatch : Prop :=
  ∀ s : State, s.up = true →
    (∀ (a : AdaptBlock) (c : Candidate),
      let k := adaptKey a.airClass.toNat a.group.toNat
      let g := s.headGroup k
      s.slackFor a.refNs = true → s.adapting k = true → g.candidate = some c →
      ∃ t, exec (.adaptBlock a) s = .next t ∧ t.job = s.job ∧ s.keepsPlatform t ∧ (∀ k', k' ≠ k → t.headGroup k' = s.headGroup k') ∧
        (a.poison = true ∨ (c.trained = true ∧ s.sys.headPoisoned k .candidate = true) →
          t.headGroup k = { g with candidate := none } ∧ counted Cls.HEAD_REJECT s t) ∧
        (a.poison = false → c.trained = false → c.steps + a.steps < s.adaptParam 6 2 →
          let r := s.trained k a.steps c
          t.headGroup k = { g with candidate := some { c with
            steps := c.steps + a.steps, w1 := r.w1.words, w2 := r.w2.words, v1 := r.v1.words, v2 := r.v2.words } }) ∧
        (a.poison = false → c.trained = false → c.steps + a.steps = s.adaptParam 6 2 →
          let r := s.trained k a.steps c
          if r.deviates (ofFp32 (s.adaptParam 0x10 4)) = true then t.headGroup k = { g with candidate := none } ∧ counted Cls.HEAD_REJECT s t
          else t.headGroup k = { g with candidate := some { c with
              steps := c.steps + a.steps, trained := true,
              w1 := r.w1.words, w2 := r.w2.words, v1 := r.v1.words, v2 := r.v2.words } } ∧
            t.sys = s.sys.writeHead k .candidate (r.w1.quantised ++ r.w2.quantised)) ∧
        (a.poison = false → c.trained = true → s.sys.headPoisoned k .candidate = false → c.validated = none → a.validate = true →
          s.adaptParam 0x14 1 ≤ (c.heldSet.getD g.held).length →
          let cand := s.headScore k .candidate (c.heldSet.getD g.held)
          let act := s.headScore k .active (c.heldSet.getD g.held)
          let margin := s.adaptFp 0x18
          if cand.1 < act.1 ∨ (act.2.1 - cand.2.1) * margin.2 < margin.1 * (cand.2.2 * 2 ^ fixBits : Nat) then
            t.headGroup k = { g with candidate := none } ∧ counted Cls.HEAD_REJECT s t
          else t = s.setHeadGroup k { g with candidate := some { c with validated := some s.job.slot } })) ∧
    ∀ (ac group : Byte) (w : Watch),
      let k := adaptKey ac.toNat group.toNat
      let second := (s.sys.now - w.start) / 1000000000
      (s.headGroup k).watch = some w → w.checked < second → w.baseAll ≠ 0 →
      exec (.rollbackWatchCheck ac group) s = .next (s.setHeadGroup k { s.headGroup k with
        rollbackDue := (s.headGroup k).rollbackDue ||
          (decide (s.adaptParam 0x24 4 ≤ w.all) && belowBaseline w (s.adaptFp 0x1C) 0),
        watch := if s.adaptParam 0x20 4 ≤ second then none else some { w with checked := second } })

/-! ### The slot: ingest, phases, barrier, combining, boundary (ch. 3, 12) -/

/-- The phases' own frame: what the receive chain does not hold stands. -/
def phaseFrame (s t : State) : Prop :=
  t.heron = s.heron ∧ t.power = s.power ∧ t.pins = s.pins ∧ t.jtag = s.jtag ∧ t.sluice = s.sluice ∧ t.time = s.time ∧
    t.image = s.image ∧ s.sys.keepsSetup t.sys ∧ t.pending = s.pending ∧ t.job.state = s.job.state ∧ t.job.slot = s.job.slot

/-- What the first `n` channel samples of the slot, scaled, evaluated and taken by the gain loop, leave of a state (R86 to R90). -/
def afterSamples (c : Channel) (est : DetEst) (n : Nat) (s : State) : State :=
  ((s.slotSamples c.id).take n).foldl (fun a k => sampleStep c est k a) (trimScaled c s)

/-- The work of a phase is done once, in its phase: CHAN gives every configured channel its samples on every stream of its group, saturated and with the poison they derive from;
DETECT opens a burst at the sample where metric and power have held at DET_HOLD evaluations, with the gains in force there; RECV at the
fallback grade takes every burst's symbols to the end of the slot; DECODE closes every burst that is complete and due; DELIVER delivers
every closed burst whose CRC passed; elsewhere the command changes nothing (R73, R76, R83, R84, R87, R90, R94, R107).
The model's own choices in it are those of log entries 69, 72, 76, 77, 78, 214, 217, 228 to 244, 249, 250, 263, 268, 278. -/
def Obligations.PhaseWork : Prop :=
  ∀ s : State, s.up = true →
    (s.job.phase = .chan → s.job.worked = false →
      ∀ ins : List ChanPoison, ∃ t, exec (.chan ins) s = .next t ∧ phaseFrame s t ∧ t.job = { s.job with worked := true } ∧
        t = { s with job := t.job, rx := { s.rx with samples := t.rx.samples }, sys := t.sys } ∧
        ∀ c ∈ s.job.channels, ∀ st, st < 32 → c.streams.getLsbD st = true →
          mapGet (fun _ => []) (c.id.toNat * 32 + st) t.rx.samples = (s.slotSamples c.id).map fun k =>
            { k := k, re := max (-32768) (min 32767 (s.rawSample c st k).1), im := max (-32768) (min 32767 (s.rawSample c st k).2),
              poison := ins.any fun x => x.channel == c.id && x.stream.toNat == st && x.sample == k }) ∧
    (s.job.phase = .detect → s.job.worked = false →
      (∀ evals hits, ∃ t, exec (.detect evals hits) s = .next t ∧ phaseFrame s t ∧ t.job = { s.job with worked := true }) ∧
      ∀ (evals hits : List DetEst) (c : Channel) (n k : Nat), s.job.channels = [c] → (s.slotSamples c.id)[n]? = some k → k % 2 = 0 →
        (∀ b ∈ s.rx.bursts, b.handle ≠ s.rx.nextHandle) →
        let u := scaleStep c k (afterSamples c (estOf evals c) n s)
        let d := s.detParams c.airClass
        u.channelBursts c.id = [] → d.thresh * (u.metric c k).2 ≤ 100 * (u.metric c k).1 →
        u.floorOf c.id ^ 20 * 10 ^ d.snrMin ≤ u.groupPower c k ^ 20 → d.hold ≤ natAt u.rx.holdCount c.id.toNat + 1 →
        s.lastSample c.id < k + 96 →
        ∃ t, exec (.detect evals hits) s = .next t ∧
          ∃ b ∈ t.rx.bursts, b.handle = s.rx.nextHandle ∧ b.channel = c.id ∧ (b.state = .detected ∨ b.state = .synced) ∧
            b.trigger = k * halfSymbol c.id ∧ b.airClass = c.airClass ∧ b.frozen = u.groupGains c) ∧
    (s.job.phase = .recv → s.job.worked = false →
      ∀ ins, ∃ t, exec (.recv ins) s = .next t ∧ phaseFrame s t ∧ t.job.worked = true ∧ t.job.phase = .recv ∧
        (s.job.fallback = true → ∀ h b, s.burst h = some b → b.state = .synced ∨ (b.state = .opened ∧ b.waiting = false) →
          ∃ b', t.burst h = some b' ∧ b'.symbols = max b.symbols (b.arrived (s.slotEnd * unitsPerNs)) ∧ b'.state = b.state ∧
            b'.channel = b.channel)) ∧
    (s.job.phase = .decode → s.job.worked = false →
      ∃ t, exec .decode s = .next t ∧ phaseFrame s t ∧ t.job.worked = true ∧ t.job.phase = .decode ∧
        ∀ b ∈ t.rx.bursts, ¬ (b.state = .opened ∧ b.closeSlot ≤ s.job.slot ∧ b.complete = true)) ∧
    (s.job.phase = .deliver → s.job.worked = false →
      ∃ t, exec .deliver s = .next t ∧ phaseFrame s t ∧ t.job.worked = true ∧ t.job.phase = .deliver ∧
        ∀ b ∈ t.rx.bursts, ¬ (b.state = .closed ∧ b.crcOk = true ∧ b.delivered = false)) ∧
    (s.job.phase ≠ .chan ∨ s.job.worked = true → ∀ ins, exec (.chan ins) s = .next s) ∧
    (s.job.phase ≠ .detect ∨ s.job.worked = true → ∀ evals hits, exec (.detect evals hits) s = .next s) ∧
    (s.job.phase ≠ .recv ∨ s.job.worked = true → ∀ ins, exec (.recv ins) s = .next s) ∧
    (s.job.phase ≠ .decode ∨ s.job.worked = true → exec .decode s = .next s) ∧
    (s.job.phase ≠ .deliver ∨ s.job.worked = true → exec .deliver s = .next s)

/-- Ingest closes when every sample is in or FH_MAX_DELAY after the slot; the slot joins the buffer of three and, when it is the slot in
progress, CHAN begins; the messages counted missing are as many as what is missing allows. The barrier of a phase whose work and streams are done takes its time and begins the next phase (R80, R81, R364,
R378).
The model's own choices in it are those of log entries 57, 69, 253, 262, 273. -/
def Obligations.IngestAndBarrier : Prop :=
  ∀ s : State, s.up = true → s.job.active = true →
    (∀ missing : BitVec 32, s.ingestFull s.rx.next = true ∨ (s.rx.next + 1) * s.sys.slotLen + s.job.fhMaxDelay * 1000 ≤ s.sys.now →
      ∃ t, exec (.ingestClose missing) s = .next t ∧ t.rx.next = s.rx.next + 1 ∧
        t.rx.slots = (s.rx.slots ++ [s.rx.next]).filter (fun j => decide (s.rx.next < j + 3)) ∧ t.job.slot = s.job.slot ∧
        t.job.phase = (if s.job.phase = .ingest ∧ s.job.slot = s.rx.next ∧ (s.stepped = false ∨ s.job.stepNow.isSome = true) then .chan
          else s.job.phase) ∧
        (natAt t.sys.counters Cls.FH_MISSING = if s.ingestFull s.rx.next = true then natAt s.sys.counters Cls.FH_MISSING
          else min counterMax (natAt s.sys.counters Cls.FH_MISSING +
            max (s.missingMessages s.rx.next).1 (min (s.missingMessages s.rx.next).2 missing.toNat))) ∧
        phaseFrame s t) ∧
    (s.job.worked = true → s.job.phase.streamIndex.isSome = true → s.streamsDone = true → s.swapInsHold = false →
      ∃ t, exec .phaseBarrierRelease s = .next t ∧ t.job.phase = s.job.phase.next ∧ t.job.worked = false ∧ t.job.phaseFrom = s.sys.now / 1000 * 1000 ∧
        natAt t.job.measured s.job.phase.index = s.sys.now / 1000 * 1000 - s.job.phaseFrom ∧ t.job.slot = s.job.slot ∧ t.job.state = s.job.state) ∧
    (s.job.worked = false ∨ s.streamsDone = false → exec .phaseBarrierRelease s = .next s)

/-- The combining pass runs once COMBINE_WAIT has passed, for what has come of the slot; the deadline ends decisions; DELIVER's streams
done, the statistics of every core return to zero (R105, R110, R308, R380).
The model's own choices in it are those of log entries 57, 58, 70, 71, 273. -/
def Obligations.CombiningAndDeadline : Prop :=
  ∀ s : State, s.up = true → s.job.active = true →
    (s.job.phase = .combine → s.job.worked = false → s.slotEnd + s.job.combineWait * 1000 ≤ s.sys.now → s.toCombine = true →
      s.sys.jobFault = none →
      ∃ t, exec .combiningPass s = .next t ∧ t.job.worked = true ∧ t.job.phase = .combine ∧ t.job.phaseFrom = s.sys.now / 1000 * 1000 ∧
        t.job.slot = s.job.slot ∧ t.job.state = s.job.state ∧
        ∀ c ∈ t.rx.contributions, s.job.slot < s.sys.slotOf c.finish) ∧
    (s.job.phase ≠ .done → s.slotEnd + s.job.deadline * 1000 ≤ s.sys.now →
      exec .deadlineReached s = .next { s with job := { s.job with deadlinePassed := true } }) ∧
    (s.slotStreamsDone = true → s.job.phase = .combine ∨ (s.job.phase = .deliver ∧ s.job.worked = true) →
      ∃ t, exec .statsCombine s = .next t ∧ t.cores = s.cores.map (fun e => (e.1, { e.2 with stats := [] })) ∧
        t = { s with sys := t.sys, comp := t.comp, cores := t.cores } ∧ s.sys.keepsSetup t.sys)

/-- The processing boundary of a slot with nothing waiting in JOBQ and CFGQ: the job goes on with the next slot, or, when it falls two
slots behind, with the newest whose samples are here; a stopping job ends (R372, R375, R381).
The model's own choices in it are those of log entries 57, 58, 59, 60. -/
def Obligations.ProcessingBoundary : Prop :=
  ∀ (s : State) (causes : BitVec 5), s.up = true → s.job.phase = .combine → s.sys.jobFault = none → s.sys.weightPoison = false →
    s.comp.sideRecord = none → s.job.queue = [] → s.job.cfgQueue = [] → s.job.replayActive = false → s.job.restartAt = none →
    s.job.stopQuiet = false →
    s.job.worked = true ∨ (s.slotEnd + s.job.combineWait * 1000 ≤ s.sys.now ∧ s.toCombine = false) →
    (s.job.state = .running → s.stepped = false →
      let n := if (s.job.slot + 2) * s.sys.slotLen < s.sys.now then max (s.rx.next - 1) (s.job.slot + 1) else s.job.slot + 1
      ∃ t, exec (.processingBoundary causes) s = .next t ∧ t.job.state = .running ∧ t.job.slot = n ∧ t.job.lastSlot = s.job.slot ∧
        t.job.worked = false ∧ t.job.phase = (if n < s.rx.next then .chan else .ingest) ∧
        t.job.deadline = s.job.deadlineNext ∧ t.job.afterSkip = decide (s.job.slot + 1 < n)) ∧
    (s.job.state = .stopping →
      ∃ t, exec (.processingBoundary causes) s = .next t ∧ t.job.state = .ready ∧ t.job.lock = false ∧
        t.rx.bursts.all (fun b => !b.active) = true ∧ (∀ c, (t.core c).stream = none))

/-- Idle housekeeping: counts kept in units fold into the counters, retained buffers whose slot has come are freed (R175, R592). -/
def idleHousekeepingRule : Prop :=
  ∀ s : State, s.up = true → s.job.active = false →
    ((∀ c, natAt s.sys.counters c ≤ counterMax) →
      ∃ t, exec .counterFoldIdle s = .next t ∧ t = { s with sys := { s.sys with counters := t.sys.counters, unfolded := [] } } ∧
        ∀ c, natAt t.sys.counters c = min counterMax (natAt s.sys.counters c +
          ((s.sys.unfolded.filter fun e => e.1 == c).map Prod.snd).foldl (· + ·) 0)) ∧
    ∃ t, exec .softHoldExpiry s = .next t ∧ (∀ r ∈ t.soft.retained, r ∈ s.soft.retained ∧ s.job.slot + 1 < r.expiry) ∧
      t = { s with sys := t.sys, soft := t.soft } ∧ s.sys.keepsSetup t.sys

/-- The stall detector: an active core ends the quiet time, quiet begins with none, and 10 µs of quiet with a core waiting faults the job
(R365, R366, R367). -/
def stallDetectorRule : Prop :=
  ∀ s : State, s.up = true → s.job.active = true → s.sys.jobFault = none →
    let active := s.jobCores.any s.isActive
    (active = true → exec .stallCheck s = .next { s with comp := { s.comp with quietSince := none } }) ∧
    (active = false → s.comp.quietSince = none → exec .stallCheck s = .next { s with comp := { s.comp with quietSince := some s.sys.now } }) ∧
    ∀ since, active = false → s.comp.quietSince = some since → since + 10000 ≤ s.sys.now → s.comp.lastEvent + 10000 ≤ s.sys.now →
      s.jobCores.any s.isWaiting = true →
      ∃ t, exec .stallCheck s = .next t ∧ t.comp = { s.comp with quietSince := none } ∧ t.sys.jobFault.isSome = true ∧
        t = { s with sys := t.sys, comp := t.comp } ∧ s.sys.reports t.sys

/-- Idle housekeeping: counts kept in units fold into the counters, retained buffers whose slot has come are freed (R175, R592). The stall
detector: an active core ends the quiet time, quiet begins with none, and 10 µs of quiet with a core waiting faults the job (R365, R366,
R367).
The model's own choices in it are those of log entries 22, 64, 256. -/
def Obligations.IdleAndStall : Prop := idleHousekeepingRule ∧ stallDetectorRule

/-! ### Fences, decoders, contexts (ch. 5, 14, 17) -/

/-- A fence of a unit has been set, and a record with the unit's code kept in the fault log while that has room. -/
def fenceLogged (unit : Nat) (f : Fences) (s t : State) : Prop :=
  t = { s with sys := t.sys } ∧ t.sys = { s.sys with fences := f, logKept := t.sys.logKept, logRing := t.sys.logRing } ∧
    (s.sys.logKept.length < 256 → ∃ r, t.sys.logKept = s.sys.logKept ++ [r] ∧ recordField r 2 1 = unit)

/-- A run-time fence keeps the cause of one already in force; a fenced core goes dead and faults the job, a fenced decoder abandons its pass
with DEC_TAKEOVER, whichever row names it, and the bursts stand; every fence is on record (R30, R31, R33, R179).
The model's own choices in it are those of log entries 3, 12, 252, 255. -/
def Obligations.FencesHold : Prop :=
  ∀ (s : State) (cause : FenceCause), s.up = true →
    (∀ c : BitVec 10, ∃ t, exec (.fence (.core cause) c) s = .next t ∧ t.sys.fences.core = putFence s.sys.fences.core c.toNat 3 ∧
      t.sys.coreFenced c.toNat = true ∧ (t.core c.toNat).stream = none ∧ (∀ d, d ≠ c.toNat → t.core d = s.core d) ∧
      t.sys.jobFault.isSome = true ∧ counted (fenceCause cause).1 s t) ∧
    (∀ g : BitVec 6, s.sys.decoderFenced g.toNat = false →
      ∃ t, exec (.decoderFence g) s = .next t ∧ exec (.fence .decoder (g.setWidth 10)) s = .next t ∧ t.sys.decoderFenced g.toNat = true ∧
        counted Cls.DEC_TAKEOVER s t ∧ (t.decoder g.toNat).pass = none ∧ t.rx = s.rx ∧ t.job = s.job) ∧
    (∀ g : BitVec 6, s.sys.decoderFenced g.toNat = true → exec (.decoderFence g) s = .next s) ∧
    (∀ g : BitVec 6,
      (∃ t, exec (.fence .peat (g.setWidth 10)) s = .next t ∧
        fenceLogged UnitCode.peat { s.sys.fences with peat := putFence s.sys.fences.peat g.toNat 3 } s t) ∧
      ∃ t, exec (.fence .slice (g.setWidth 10)) s = .next t ∧
        fenceLogged UnitCode.contextSlice { s.sys.fences with slice := putFence s.sys.fences.slice g.toNat 3 } s t) ∧
    ∀ n : BitVec 4, ∃ t, exec (.fence .channel (n.setWidth 10)) s = .next t ∧
      fenceLogged UnitCode.lpddr6 { s.sys.fences with channel := putFence s.sys.fences.channel n.toNat 3 } s t

/-- A free decoder takes the oldest block of its queue with the next oldest of the same weights, as many as a pass holds, and loads a word of
its RAM for each, with its check messages at 0; its end, whatever its RAM words read as, frees the decoder and leaves the bursts whose
headers it held with a header (R159, R163, R164, R169, R170).
The model's own choices in it are those of log entries 72, 77. -/
def Obligations.DecoderPasses : Prop :=
  ∀ (s : State) (g : BitVec 6), s.up = true →
    (∀ (b : Block) (rest : List Block), s.job.phase ≠ .decode → s.sys.decoderFenced g.toNat = false →
      (s.decoder g.toNat).pass = none → (s.decoder g.toNat).queue = b :: rest →
      let mates := (rest.filter fun c => c.weights == b.weights).take (codewordsPerPass b.z - 1)
      ∃ t, exec (.decoderPass g) s = .next t ∧ t = { s with decoders := t.decoders, soft := t.soft, sys := t.sys } ∧
        s.sys.keepsSetup t.sys ∧ (t.decoder g.toNat).pass = some { blocks := b :: mates, fallback := s.job.fallback } ∧
        (t.decoder g.toNat).ram.map PassWord.block = b :: mates ∧ (∀ w ∈ (t.decoder g.toNat).ram, w.msg = []) ∧
        ∀ h, h ≠ g.toNat → t.decoder h = s.decoder h) ∧
    ∀ (p : Pass) (bad : List DecUpset) (corrected : Nat), (s.decoder g.toNat).pass = some p →
      ∃ t, exec (.decoderPassEnd g bad corrected) s = .next t ∧ (t.decoder g.toNat).pass = none ∧ t.job = s.job ∧
        (∀ blk ∈ p.blocks, blk.block = 0xFFFF → ∀ b, t.burst blk.handle = some b → b.header.isSome = true)

/-- Context transfers: a slice's engine begins the first request in a free slot, a completed swap-in leaves the context IDLE or BLOCKED with
its session, a completed spill leaves the slot FREE with its 256 bytes in every copy of the record, a poisoned one leaves the record as it was, and a poisoned
context is counted and IDLE or BLOCKED again with its session (R420, R421, R423, R425).
The model's own choices in it are those of log entries 40, 79, 81, 219, 220, 221, 275. -/
def Obligations.ContextTransfers : Prop :=
  ∀ s : State, s.up = true →
    (∀ (g : BitVec 6) (r : SwapRequest) (k : Nat), natAt s.sessions.inFlight g.toNat < 8 → s.sessions.requests = [r] → r.slot = none →
      sliceOf s.job.qset r.shortId.toNat = g.toNat → flagAt s.sessions.lostSessions r.shortId.toNat = false → s.sessionSlot r.shortId.toNat = none →
      (s.sys.repairRecord r.shortId.toNat).recordLost r.shortId.toNat = false →
      (slotsOfSlice g.toNat).find? (fun k => s.sys.ctxState k == ctxFree) = some k →
      ∃ t, exec (.swapEngineServe g) s = .next t ∧ t.sys.ctxState k = ctxLoading ∧ t.sys.ctxSession k = r.shortId.toNat ∧
        natAt t.sessions.inFlight g.toNat = natAt s.sessions.inFlight g.toNat + 1 ∧
        t.sessions.requests = [{ r with slot := some k }] ∧ t.job = s.job ∧ t.rx = s.rx) ∧
    (∀ k : BitVec 16, k.toNat < 40960 → s.sys.ctxState k.toNat = ctxLoading → s.sessions.deferred = [] → s.downlink.recent = [] →
      ∃ t, exec (.swapInDone k) s = .next t ∧ (t.sys.ctxState k.toNat = ctxIdle ∨ t.sys.ctxState k.toNat = ctxBlocked) ∧
        t.sys.ctxSession k.toNat = s.sys.ctxSession k.toNat ∧ natAt t.sessions.protectedIn k.toNat = s.job.slot + 1 ∧
        t.sessions.requests = s.sessions.requests.filter (fun r => r.shortId.toNat != s.sys.ctxSession k.toNat)) ∧
    (∀ k : BitVec 16, k.toNat < 40960 → s.sys.ctxState k.toNat = ctxSpilling → s.sessions.deferred = [] →
      s.sys.poisoned (contextBase k.toNat) 256 = false →
      ∃ t, exec (.spillDone k) s = .next t ∧ t.sys.ctxState k.toNat = ctxFree ∧
        (∀ i, i < 256 → t.sys.peek (contextBase k.toNat + i) = 0) ∧
        (∀ a ∈ s.sys.recordCopies (s.sys.ctxSession k.toNat), ∀ i, i < 256 →
          t.sys.peek (a + 0x100 + i) = s.sys.peek (contextBase k.toNat + i)) ∧
        t = { s with sys := t.sys, sessions := t.sessions } ∧ s.sys.stores t.sys) ∧
    (∀ k : BitVec 16, k.toNat < 40960 → s.sys.ctxState k.toNat = ctxSpilling → s.sessions.deferred = [] →
      s.sys.poisoned (contextBase k.toNat) 256 = true → s.openBurst (BitVec.ofNat 20 (s.sys.ctxSession k.toNat)) = none →
      ∃ t, exec (.spillDone k) s = .next t ∧ t.sys.ctxState k.toNat = ctxFree ∧ counted Cls.CTX_POISON s t ∧
        ∀ a ∈ s.sys.recordCopies (s.sys.ctxSession k.toNat), ∀ i, i < 1024 → t.sys.peek (a + i) = s.sys.peek (a + i)) ∧
    ∀ k : BitVec 16, k.toNat < 40960 → s.sys.poisoned (contextBase k.toNat) 256 = true →
      s.sys.ctxState k.toNat = ctxIdle ∨ s.sys.ctxState k.toNat = ctxBlocked →
      ∃ t, exec (.ctxPoison k) s = .next t ∧ counted Cls.CTX_POISON s t ∧ t.sys.ctxSession k.toNat = s.sys.ctxSession k.toNat ∧
        (t.sys.ctxState k.toNat = ctxIdle ∨ t.sys.ctxState k.toNat = ctxBlocked)

/-! ### Sessions and samples by descriptor (ch. 13, 14) -/

/-- SESSION_ADD, MODIFY and REMOVE write, change and clear the record of a short ID, refusing one that is registered already or is not; a
TIME_SAMPLE gives its offset, θ in whole ns, and one of another step generation is discarded and counted (R401, R402, R410, R412).
The model's own choices in it are those of log entries 40, 61, 62, 139, 141. -/
def Obligations.SessionCommands : Prop :=
  ∀ (s : State) (seqno : BitVec 16), readsNow s →
    (∀ (sid : BitVec 32) (home sel ring : Byte), s.job.active = false → sid.toNat < 2 ^ 20 → home.toNat < 64 → ring.toNat ≤ 7 →
      (s.sys.registered sid.toNat = true →
        ∃ t, exec (.sessionAdd seqno sid home sel ring) s = .next t ∧ completed 5 0x20 seqno 2 0 s t) ∧
      (s.sys.registered sid.toNat = false →
        (∃ t, exec (.sessionModify seqno sid home sel ring) s = .next t ∧ completed 5 0x21 seqno 2 0 s t) ∧
        (∃ t, exec (.sessionRemove seqno sid) s = .next t ∧ completed 5 0x22 seqno 2 0 s t) ∧
        ∃ t, exec (.sessionAdd seqno sid home sel ring) s = .next t ∧ t = { s with sys := t.sys, sessions := t.sessions } ∧
          (∀ a ∈ s.sys.recordCopies sid.toNat, t.sys.peekNat a 4 = sid.toNat + 2 ^ 31 ∧ t.sys.peek (a + 4) = home ∧
            t.sys.peek (a + 5) = sel ∧ t.sys.peek (a + 6) = ring ∧ ∀ i, 7 ≤ i → i < 1024 → t.sys.peek (a + i) = 0) ∧
          counted Cls.COMPLETION s t) ∧
      (s.sys.registered sid.toNat = true → s.sessionSlot sid.toNat = none →
        (∃ t, exec (.sessionModify seqno sid home sel ring) s = .next t ∧ t = { s with sys := t.sys } ∧
          ∀ a ∈ s.sys.recordCopies sid.toNat, t.sys.peekNat a 4 = sid.toNat + 2 ^ 31 ∧ t.sys.peek (a + 4) = home ∧
            t.sys.peek (a + 5) = sel ∧ t.sys.peek (a + 6) = ring ∧ ∀ i, 7 ≤ i → i < 1024 → t.sys.peek (a + i) = s.sys.peek (a + i)) ∧
        ∃ t, exec (.sessionRemove seqno sid) s = .next t ∧ (∀ a ∈ s.sys.recordCopies sid.toNat, (t.sys.peekNat a 4).testBit 31 = false) ∧
          (∀ f ∈ t.downlink.held, f.shortId.toNat ≠ sid.toNat) ∧
          (∀ b ∈ t.rx.bursts, b.state = .opened → b.shortId.toNat ≠ sid.toNat) ∧
          ∀ r ∈ t.soft.retained, r.shortId.toNat ≠ sid.toNat)) ∧
    ∀ (addr : BitVec 64) (block : List Byte), hostRange addr.toNat 64 = true → fieldAt block 0 1 = 0 →
      (let f (o n : Nat) : Int := fieldAt block o n
        let x := (f 0x10 8 * 65536 + f 0x38 2) - f 0x08 8 * 65536 - toSigned 64 (fieldAt block 0x28 8)
        let z := f 0x20 8 * 65536 - (f 0x18 8 * 65536 + f 0x3A 2) - toSigned 64 (fieldAt block 0x30 8)
        fieldAt block 2 1 = s.time.stepGen.toNat → fieldAt block 3 1 = s.time.stepGen.toNat → 0 ≤ x + z →
        s.sys.now ≤ fieldAt block 0x10 8 + 2000000000 → s.sys.now ≤ fieldAt block 0x18 8 + 2000000000 → s.time.sampleCount < 128 →
        s.sys.regField 0x050000 0 1 = 0 → s.sys.regField 0x050000 1 1 = 0 →
        ∃ t, exec (.timeSample seqno addr block) s = .next t ∧ t.time.lastAccepted = s.sys.now ∧ t.time.servo = s.time.servo ∧
          (∃ d : Int, (d = 0 ∨ d = 1 ∧ (x - z) % 131072 ≠ 0) ∧
            t.time.theta = BitVec.ofInt 32 (satSigned 32 ((x - z) / 131072 + d))) ∧
          counted Cls.COMPLETION s t ∧ t.sys.air = s.sys.air ∧ ∀ off, t.sys.reg off = s.sys.reg off) ∧
      (fieldAt block 2 1 ≠ s.time.stepGen.toNat →
      ∃ t, exec (.timeSample seqno addr block) s = .next t ∧ counted Cls.TIME_SAMPLE_STALE s t ∧ counted Cls.COMPLETION s t ∧
        t.time.servo = s.time.servo ∧ t.time.theta = s.time.theta ∧ t.time.lastAccepted = s.time.lastAccepted ∧ t.sys.air = s.sys.air ∧
        ∀ off, t.sys.reg off = s.sys.reg off)

/-! ### Host rings, dumps, downlink, registers (ch. 15, 21) -/

/-- DOORBELL moves the host's position of an enabled ring: a submission ring runs again from it, a completion ring's head moves over
occupied slots alone; a disabled ring and a position out of range are counted and change nothing (R437). HOSTQ_CFG of an open setup
disables the ring, or, for a ring without buffers, latches its registers and begins afresh, or counts a size out of range (R435).
The model's own choices in it are those of log entries 87, 200. -/
def Obligations.RingsAndDoorbells : Prop :=
  ∀ (s : State) (r : BitVec 5), s.hostUp = true → r.toNat < 18 →
    (∀ index : BitVec 16,
      let h := s.sys.ring r.toNat
      let moves := (index.toNat + h.size - h.hostPos) % h.size
      exec (.doorbell r index) s = .next { s with
        sys := if h.enabled = false then s.sys.count Cls.DOORBELL_DISABLED
          else if h.size ≤ index.toNat ∨ (8 ≤ r.toNat ∧ h.used < moves) then s.sys.count Cls.DOORBELL_RANGE
          else if r.toNat < 8 then s.sys.setRing r.toNat { h with hostPos := index.toNat, stopped := false, waitSince := none }
          else s.sys.setRing r.toNat { h with hostPos := index.toNat } }) ∧
    ∀ v : BitVec 32, s.job.lock = false →
      let o := hostqOff r.toNat
      let log2 := v.toNat % 32
      ∃ t, exec (.hostqEnable r v) s = .next t ∧ t = { s with sys := t.sys } ∧
        (∀ off, off ≠ o + 8 → t.sys.reg off = s.sys.reg off) ∧ (∀ q, q ≠ r.toNat → t.sys.ring q = s.sys.ring q) ∧
        t.sys.regField (o + 8) 0 6 = v.toNat % 64 ∧
        (v.getLsbD 5 = false → t.sys.ring r.toNat = { s.sys.ring r.toNat with enabled := false } ∧ t.sys.counters = s.sys.counters) ∧
        (v.getLsbD 5 = true → ¬ (6 ≤ log2 ∧ log2 ≤ 16) →
          (t.sys.ring r.toNat).enabled = false ∧ counted Cls.RING_CONFIG_INVALID s t) ∧
        (v.getLsbD 5 = true → 6 ≤ log2 → log2 ≤ 16 → s.sys.reg o % 4096 = 0 → hostRange (s.sys.reg o) (32 * 2 ^ log2) = true →
          r.toNat < 8 ∨ r.toNat = 16 →
          t.sys.counters = s.sys.counters ∧ t.sys.ring r.toNat =
            { enabled := true, base := s.sys.reg o, log2 := log2, vector := v.toNat / 2 ^ 8 % 2 ^ 6,
              coalesce := if r.toNat < 8 then 0 else v.toNat / 2 ^ 16, bufBase := s.sys.reg (o + 0x10),
              rxLog2 := s.sys.regField (o + 0x18) 0 4 })

/-- A submission ring's slot: a wrong PHASE starts its wait, 100 µs of it stop the ring with one event; an uncorrectable error of the
descriptor cache is a DESC_ECC fault and the slot is read again; a descriptor in its pass is taken, the position moves on, and it does
what its row does (R438 to R441, R444).
The model's own choices in it are those of log entries 65, 82, 83, 84, 85, 88. -/
def Obligations.SubmissionRings : Prop :=
  ∀ (s : State) (r : BitVec 3),
    (∀ (slot : BitVec 256) (buf : List Byte) (poison : Bool),
      let h := s.sys.ring r.toNat
      let u : State := { s with sys := s.sys.setRing r.toNat { h.advance 1 with waitSince := none } }
      let op := slotField slot 0 1
      let q : BitVec 16 := BitVec.ofNat 16 (slotField slot 2 2)
      s.ready = true → h.pending = true → s.sys.takesSubmissions = true → s.sys.dlqBefore r.toNat = false →
      s.downlink.held.length < 16384 →
      exec (.submissionFetch r slot buf true poison) s = .next { s with sys := s.sys.fault Cls.DESC_ECC UnitCode.pcie 0 0 r.toNat } ∧
      ((slotField slot 1 1 % 2 = 1 ↔ h.phase = false) →
        exec (.submissionFetch r slot buf false poison) s = .next { s with
          sys := s.sys.setRing r.toNat { h with waitSince := h.waitSince <|> some s.sys.now } }) ∧
      ((slotField slot 1 1 % 2 = 1 ↔ h.phase = true) →
        let c := Instr.submissionFetch r slot buf false poison
        (r = 0 → op = 0x03 → exec c s = exec (.jobStop q) u) ∧
        (r = 0 → op = 0x06 → slotField slot 10 2 = 0 → slotField slot 12 2 = 0 →
          exec c s = exec (.step q (BitVec.ofNat 48 (slotField slot 4 6)) [] [] (BitVec.ofNat 64 (slotField slot 16 8))) u) ∧
        (r = 5 → op = 0x22 → exec c s = exec (.sessionRemove q (BitVec.ofNat 32 (slotField slot 4 4))) u) ∧
        (∀ ring : BitVec 2, r.toNat = ring.toNat + 1 → op = 0x30 → exec c s = exec (.dlCommand ring slot buf poison) u) ∧
        (r = 6 → op = 0x40 →
          exec c s = exec (.countersDump q (BitVec.ofNat 64 (slotField slot 8 8)) (BitVec.ofNat 32 (slotField slot 16 4))) u) ∧
        (r = 7 → h.modPos < 65536 → op = 0x50 → exec c s = exec (.ethTx (BitVec.ofNat 16 h.modPos) slot buf) u) ∧
        (6 ≤ r.toNat → op < 0x40 →
          exec c s = .next { u with sys := u.sys.completion Cls.COMPLETION r.toNat op q.toNat 2 0 0 }))) ∧
    ∀ since, s.hostUp = true → (s.sys.ring r.toNat).enabled = true → (s.sys.ring r.toNat).stopped = false →
      (s.sys.ring r.toNat).waitSince = some since → since + 100000 ≤ s.sys.now →
      exec (.hostRingPhase r) s = .next { s with
        sys := (s.sys.setRing r.toNat { s.sys.ring r.toNat with stopped := true, waitSince := none }).event Cls.HOST_RING_PHASE
          [(2, 1, r.toNat), (4, 2, (s.sys.ring r.toNat).modPos)] }

/-- What waits for EVQ is written in order as far as EVQ has room; COALESCE after its first unsignalled entry, a ring's vector is sent,
or left pending while masked (R448, R452). -/
def heldEntriesAndCoalesceRule : Prop :=
  ∀ s : State, s.up = true →
    (∃ t, exec .evqHeldWrite s = .next t ∧ t = { s with sys := t.sys } ∧ s.sys.reports t.sys ∧ t.sys.counters = s.sys.counters ∧
      (∃ k, t.sys.held = s.sys.held.drop k) ∧ (t.sys.evqOpen = true → t.sys.held = [] ∧ t.sys.dropped = 0)) ∧
    ∀ (r : BitVec 5) (since : Nat),
      let h := s.sys.ring r.toNat
      h.enabled = true → h.unsigSince = some since → since + h.coalesce * 1000 ≤ s.sys.now →
      (s.sys.msixMasked h.vector = false →
        exec (.coalesceExpiry r) s = .next { s with
          sys := { s.sys.setRing r.toNat { h with unsigSince := none } with sent := s.sys.sent ++ [.msix h.vector] } }) ∧
      (s.sys.msixMasked h.vector = true →
        exec (.coalesceExpiry r) s = .next { s with
          sys := { s.sys.setRing r.toNat { h with unsigSince := none } with
            msixPending := s.sys.msixPending ||| (1#64 <<< h.vector) } })

/-- A diagnostic dump answers INVALID outside the host range and writes nothing; inside, it writes what it dumps, in order and up to
LENGTH, and completes OK; EVQ's own slots apart, no other byte changes (R592, R593, R595). -/
def dumpsRule : Prop :=
  ∀ (s : State) (seqno : BitVec 16) (addr : BitVec 64) (len : BitVec 32), s.hostUp = true →
    let dumps (c : Instr) (opcode : Nat) (u : State) (size : Nat) (at_ : Nat → Byte) : Prop :=
      (hostRange addr.toNat len.toNat = false → ∃ t, exec c s = .next t ∧ completed 6 opcode seqno 2 0 u t) ∧
      (hostRange addr.toNat len.toNat = true →
        ∃ t, exec c s = .next t ∧ t = { u with sys := t.sys } ∧ t.sys.regs = u.sys.regs ∧
          natAt t.sys.counters Cls.COMPLETION = min counterMax (natAt u.sys.counters Cls.COMPLETION + 1) ∧
          ∀ a, s.sys.outsideEvq a = true →
            t.sys.peek a = if hostBase + addr.toNat ≤ a ∧ a < hostBase + addr.toNat + min len.toNat size
              then at_ (a - (hostBase + addr.toNat)) else s.sys.peek a)
    let log := s.sys.logKept ++ s.sys.logRing
    let places := min s.sys.trace.count ((len.toNat + 31) / 32)
    dumps (.countersDump seqno addr len) 0x40 { s with sys := s.sys.fold } 6144 (fun i =>
      BitVec.ofNat 8 (natAt s.sys.fold.counters (if i < 4096 then i / 8 else 0x1000 + (i - 4096) / 8) / 256 ^ (i % 8))) ∧
    dumps (.faultLogDump seqno addr len) 0x41 s (32 * log.length) (fun i => BitVec.ofNat 8 ((log.getD (i / 32) 0).toNat / 256 ^ (i % 32))) ∧
    dumps (.traceDump seqno addr len) 0x42 s (32 * places) (fun i =>
      s.sys.peek (traceBase + 32 * ((s.sys.trace.head + tracePlaces - s.sys.trace.count + i / 32) % tracePlaces) + i % 32))

/-- What waits for EVQ is written in order as far as EVQ has room; COALESCE after its first unsignalled entry, a ring's vector is sent, or
left pending while masked (R448, R452). A diagnostic dump answers INVALID outside the host range and writes nothing; inside, it writes
what it dumps, in order and up to LENGTH, and completes OK; EVQ's own slots apart, no other byte changes (R592, R593, R595).
The model's own choices in it are those of log entries 28, 86, 215. -/
def Obligations.HeldEntriesAndDumps : Prop := heldEntriesAndCoalesceRule ∧ dumpsRule

/-- A held frame is due for the Sluice: absolute or released, its start within two slots from now (R517). -/
def due (s : State) (h : HeldFrame) : Prop :=
  (h.anchored = false ∨ h.released = true) ∧ h.start ≤ s.sys.now + 2 * s.sys.slotLen

/-- DL_COMMAND is judged in the order of its table: not running, fields, CRC-32, then the time of an absolute frame and what is held;
an accepted frame is held, the others complete with their status. A frame held for its HOLD ends EXPIRED; the first that is due within
two slots goes to the Sluice (R444, R445, R517).
The model's own choices in it are those of log entries 82, 89, 92, 93. -/
def Obligations.DownlinkCommands : Prop :=
  (∀ (s : State) (ring : BitVec 2) (slot : BitVec 256) (body : List Byte) (poison : Bool), s.ready = true →
    s.downlink.held.length < 16384 →
    let f := slotField slot
    let q : BitVec 16 := BitVec.ofNat 16 (f 2 2)
    let start := extendEntry s.sys.now (f 12 5)
    let prof := f 4 4 / 2 ^ 20 % 16
    let crcOk := frameCrc32 (f 4 4 % 2 ^ 20) ((List.range (f 10 1 + 1)).map fun i => body.getD i 0) = fieldAt body (f 10 1 + 1) 4
    let clashes (h : HeldFrame) : Prop := (h.anchored = false ∨ h.released = true) ∧ h.channel = BitVec.ofNat 16 (f 8 2) ∧
      h.start < start.toNat + frameNs prof (f 10 1 + 1) ∧ start.toNat < h.start + frameNs h.profile (h.lenM1 + 1)
    let ends (status reason : Nat) (u : State) : Prop :=
      exec (.dlCommand ring slot body poison) s = .next (dlDone (ring.toNat + 1) q status reason s.sys.now u)
    let accepted : Prop :=
      ∃ h : HeldFrame, exec (.dlCommand ring slot body poison) s =
          .next { s with downlink := { s.downlink with held := s.downlink.held ++ [h] } } ∧
        h.ring = ring.toNat + 1 ∧ h.seqno = q ∧ h.anchored = (f 1 1).testBit 2 ∧ h.shortId.toNat = f 4 4 % 2 ^ 20 ∧
        h.profile = prof ∧ h.seq.toNat = f 4 4 / 2 ^ 24 ∧ h.lenM1 = f 10 1 ∧ h.body.length = f 10 1 + 5 ∧ h.channel.toNat = f 8 2 ∧
        h.start = start.toNat ∧ h.offset = f 18 2 ∧ h.expires = s.sys.now + f 20 2 * 1000000000 ∧ h.released = false
    (s.job.state ≠ .running → ends 3 0 s) ∧
    (s.job.state = .running →
      (dlFieldsOk slot s = false → ends 2 0 s) ∧
      (dlFieldsOk slot s = true →
        (poison = true ∨ ¬ crcOk → ends 5 1 { s with sys := s.sys.count Cls.DL_CRC_FAIL }) ∧
        (poison = false → crcOk →
          ((f 1 1).testBit 2 = true → accepted) ∧
          ((f 1 1).testBit 2 = false →
            (start < ((s.sys.slotOf s.sys.now + 2) * s.sys.slotLen : Nat) → ends 5 2 s) ∧
            (¬ start < ((s.sys.slotOf s.sys.now + 2) * s.sys.slotLen : Nat) →
              ((∃ h ∈ s.downlink.held, clashes h) → ends 5 3 s) ∧
              ((∀ h ∈ s.downlink.held, ¬ clashes h) → accepted))))))) ∧
  ∀ s : State, s.up = true →
    (∃ t, exec .dlHoldExpiry s = .next t ∧ t = { s with sys := t.sys, downlink := t.downlink } ∧ s.sys.reports t.sys ∧
      t.downlink = { s.downlink with
        held := s.downlink.held.filter fun h => !(h.anchored && !h.released && decide (h.expires ≤ s.sys.now)) } ∧
      ((∀ h ∈ s.downlink.held, h.anchored = true → h.released = false → s.sys.now < h.expires) → t = s)) ∧
    ((∀ h ∈ s.downlink.held, ¬ due s h) → exec .dlFrameHandover s = .next s) ∧
      ∀ (pre post : List HeldFrame) (h : HeldFrame), s.downlink.held = pre ++ h :: post → (∀ g ∈ pre, ¬ due s g) → due s h →
        ∃ (t : State) (g : HandedFrame), exec .dlFrameHandover s = .next t ∧ t = { s with sys := t.sys, downlink := t.downlink } ∧
          s.sys.keepsSetup t.sys ∧ t.downlink.held = pre ++ post ∧ t.downlink.handed = s.downlink.handed ++ [g] ∧ g.command = true ∧
          g.ring = h.ring ∧ g.seqno = h.seqno ∧ g.shortId = h.shortId ∧ g.seq = h.seq ∧ g.body = h.body ∧
          g.desc.channel = h.channel ∧ g.desc.profile = h.profile ∧ g.desc.lenM1 = h.lenM1 ∧ g.desc.start = h.start ∧
          g.desc.width = channelWidth h.channel

/-- Register accesses: a field takes a written value by its access code, an RWL field only while setup is open, and what would change one
after it is counted; no other register changes. A write of GO starts the mailbox command of CMD. A read of a 32-bit register gives its value and changes nothing; an access of another
size is counted and has no effect; BAR 0's DB_STATUS is read even in module stop (R9, R10, R533, R564, R578, R596).
The model's own choices in it are those of log entries 42, 195, 196, 197, 267. -/
def Obligations.RegisterAccesses : Prop :=
  ∀ s : State,
    (s.hostUp = true → ∀ (off : BitVec 22) (fs : List Fld) (v : BitVec 64),
      findReg off.toNat = some (off.toNat, 4, fs) → off ≠ 0x010018 → off ≠ 0x0A0000 →
      ∃ t, exec (.registerWrite false off 4 (.write v)) s = .next t ∧ (∀ x, x ≠ off.toNat → t.sys.reg x = s.sys.reg x) ∧
        (∀ g ∈ fs, t.sys.regField off.toNat g.lo g.len =
          match g.acc with
          | .rw => bitsOf v.toNat g.lo g.len
          | .rwl => if s.job.lock then s.sys.regField off.toNat g.lo g.len else bitsOf v.toNat g.lo g.len
          | .ro | .wo => s.sys.regField off.toNat g.lo g.len
          | .wc => Nat.land (s.sys.regField off.toNat g.lo g.len) (2 ^ g.len - 1 - bitsOf v.toNat g.lo g.len)) ∧
        (s.job.lock = true →
          (∃ g ∈ fs, g.acc = .rwl ∧ bitsOf (v.toNat % 2 ^ 32) g.lo g.len ≠ s.sys.regField off.toNat g.lo g.len) →
          counted Cls.LOCKED_WRITE s t) ∧
        (s.job.lock = false → natAt t.sys.counters Cls.LOCKED_WRITE = natAt s.sys.counters Cls.LOCKED_WRITE) ∧
        t.job = s.job ∧ t.pins = s.pins ∧ t.heron = s.heron) ∧
    (s.hostUp = true → mailboxFree s → ∀ v : BitVec 64, v.getLsbD 0 = true → 1 ≤ s.sys.regField 0x010000 0 8 → s.sys.regField 0x010000 0 8 ≤ 7 →
      ∃ t, exec (.registerWrite false 0x010018 4 (.write v)) s = .next t ∧ registersStand s t ∧ t = { s with
        sys := t.sys,
        heron := { s.heron with mbxStarted := s.sys.regField 0x010000 0 8, mbxCmd := s.sys.regField 0x010000 0 8, mbxBusy := true } }) ∧
    (s.hostUp = true → ∀ (off : BitVec 22) (fs : List Fld), findReg off.toNat = some (off.toNat, 4, fs) →
      exec (.registerWrite false off 4 .read) s = .next { s with
        sys := { s.sys with regs := { s.sys.regs with readData := readReg s off.toNat % 2 ^ 32, readPoisoned := false } } }) ∧
    (s.hostUp = true → ∀ (off : BitVec 22) (size : BitVec 8) (v : BitVec 64), size ≠ 4 → size ≠ 8 →
      exec (.registerWrite false off size (.write v)) s = .next { s with sys := s.sys.count Cls.BAR_ACCESS_SIZE }) ∧
    (s.heron.powered = true → s.heron.inReset = false → s.heron.pcieUp = true →
      (∃ v, exec (.registerWrite true 0x200 4 .read) s = .next { s with
          sys := { s.sys with regs := { s.sys.regs with readData := v, readPoisoned := false } } } ∧
        bitsOf v 0 3 = s.job.state.code ∧ v.testBit 3 = s.job.lock ∧ v.testBit 4 = s.time.timingUnsafe ∧ v.testBit 5 = !s.pins.faultN) ∧
      ∀ (off : BitVec 22) (v : BitVec 64), s.heron.moduleStop = true → exec (.registerWrite true off 4 (.write v)) s = .next s)

/-- The writes with rows of their own: ERR_CTRL.CLEAR, the trace settings, which act at once while no job runs, GUARD_MUTE_CLEAR, PWR_CAP,
and the pair commands; no other register changes (R482, R522, R558, R592, R594). The heartbeat counts (R582).
The model's own choices in it are those of log entries 22, 170. -/
def Obligations.NamedRegisterWrites : Prop :=
  ∀ s : State,
    (s.hostUp = true →
      (∀ v : BitVec 32, v.getLsbD 0 = true →
        (∃ t, exec (.errClear v) s = .next t ∧ (∀ off, t.sys.reg off = s.sys.reg off) ∧ t = { s with
          sys := { s.sys with regs := t.sys.regs, counters := [], satTotal := 0, unfTotal := 0, anyFault := false } }) ∧
        ∃ t, exec (.guardMuteClear v) s = .next t ∧ registersStand s t ∧
          t = { s with sys := t.sys, sluice := { s.sluice with muteViolation := false } }) ∧
      (∀ v : BitVec 64, ∃ t u, exec (.traceCtrlWrite false v) s = .next t ∧ exec (.traceCtrlWrite true v) s = .next u ∧
        t.sys.regField 0x0C0000 0 3 = v.toNat % 8 ∧ u.sys.regField 0x0C0008 0 64 = v.toNat ∧
        (∀ off, off ≠ 0x0C0000 → t.sys.reg off = s.sys.reg off) ∧ (∀ off, off ≠ 0x0C0008 → u.sys.reg off = s.sys.reg off) ∧
        t = { s with sys := { s.sys with regs := t.sys.regs, trace := t.sys.trace } } ∧
        u = { s with sys := { s.sys with regs := u.sys.regs, trace := u.sys.trace } } ∧
        (s.job.active = true → t.sys.trace = s.sys.trace ∧ u.sys.trace = s.sys.trace) ∧
        (s.job.active = false → t.sys.trace = { s.sys.trace with
              ctrl := BitVec.ofNat 3 v.toNat, clusters := BitVec.ofNat 64 (s.sys.reg 0x0C0008) } ∧
          u.sys.trace = { s.sys.trace with ctrl := BitVec.ofNat 3 (s.sys.reg 0x0C0000), clusters := v })) ∧
      (∀ v : BitVec 32, ∃ t, exec (.pwrCapWrite v) s = .next t ∧ t.sys.regField 0x090000 0 2 = v.toNat % 4 ∧
        (∀ off, off ≠ 0x090000 → t.sys.reg off = s.sys.reg off) ∧ t = { s with sys := { s.sys with regs := t.sys.regs } }) ∧
      (s.sys.pairOn = true → s.net.role = 2 →
        ∃ t, exec .relinquish s = .next t ∧ registersStand s t ∧
          t = { s with sys := t.sys, net := { s.net with roleNext := some 1, relinquish := true } }) ∧
      (s.sys.pairOn = true → s.net.role = 1 → s.net.roleNext ≠ some 2 →
        ∃ t, exec .take s = .next t ∧ (∀ off, t.sys.reg off = s.sys.reg off) ∧ t = { s with sys := t.sys, net := t.net } ∧
          (s.mayTake = true → counted Cls.PAIR_TAKEOVER s t ∧ t.net = { s.net with roleNext := some 2 }) ∧
          (s.mayTake = false → counted Cls.PAIR_NO_TAKEOVER s t ∧ t.net = s.net))) ∧
    (s.up = true → ∀ n : Nat, exec (.modHeartbeat n) s = .next { s with
      heron := { s.heron with heartbeat := s.heron.heartbeat + 1 }, sys := s.sys.countN Cls.CE_HERON n })

/-- BAR 4 reaches the LPDDR6 that HOSTQ_DIAG_WINDOW selects while setup is open, and answers all ones and counts while it is locked (R457).
ETH_TX sends its frame out of the port with the one-step timestamp put in, counts one whose port is down, and with its
write-back flag returns transmit time, status and step generation in its descriptor (R396 to R398, R455).
The model's own choices in it are those of log entries 83, 84. -/
def Obligations.Bar4AndEthernetTransmit : Prop :=
  ∀ s : State, s.hostUp = true →
    (∀ (off : BitVec 28) (n : BitVec 8) (v : BitVec 64),
      let x := s.sys.bar4Addr off.toNat
      (s.job.lock = true →
        exec (.bar4Access off n (.write v) []) s = .next { s with sys := s.sys.count Cls.BAR4_CLOSED } ∧
        ∃ t, exec (.bar4Access off n .read []) s = .next t ∧ t.sys.regs.readData = 2 ^ (8 * n.toNat) - 1 ∧
          counted Cls.BAR4_CLOSED s t ∧ t.sys.mem = s.sys.mem) ∧
      (s.job.lock = false → s.sys.localFault x = none →
        (∃ t, exec (.bar4Access off n (.write v) []) s = .next t ∧ t = { s with sys := t.sys } ∧ s.sys.stores t.sys ∧
          ∀ a, t.sys.peek a = if x ≤ a ∧ a < x + n.toNat then BitVec.ofNat 8 (v.toNat / 256 ^ (a - x)) else s.sys.peek a) ∧
        ∃ t, exec (.bar4Access off n .read []) s = .next t ∧ t.sys.regs.readData = s.sys.peekNat x n.toNat ∧
          t.sys.mem = s.sys.mem ∧ t.job = s.job)) ∧
    ∀ (index : BitVec 16) (d : BitVec 256) (frame : List Byte),
      let f := slotField d
      let a := (s.sys.ring 7).slotAddr index.toNat
      f 4 1 ≤ 5 → frame.length = f 6 2 → 60 ≤ f 6 2 → f 6 2 ≤ 9216 → hostRange (f 16 8) (f 6 2) = true →
      ((f 1 1).testBit 2 = true → f 8 2 + 10 ≤ f 6 2) →
      ∃ t, exec (.ethTx index d frame) s = .next t ∧ t = { s with sys := t.sys } ∧
        ((s.net.port (f 4 1)).up = false → counted Cls.ETH_TX_DOWN s t ∧ t.sys.sent = s.sys.sent) ∧
        ((s.net.port (f 4 1)).up = true → t.sys.counters = s.sys.counters ∧
          ∃ out, t.sys.sent = s.sys.sent ++ [.frame (f 4 1) out] ∧ out.length = f 6 2 ∧
            ((f 1 1).testBit 2 = false → out = frame) ∧
            ((f 1 1).testBit 2 = true → (out.drop (f 8 2)).take 10 = ptpStamp (s.sys.portStamp (f 4 1) 16) ∧
              ∀ i, i < f 8 2 ∨ f 8 2 + 10 ≤ i → out.getD i 0 = frame.getD i 0)) ∧
        ((f 1 1).testBit 1 = false → t.sys.mem = s.sys.mem) ∧
        ((f 1 1).testBit 1 = true → t.sys.peek (a + 1) = BitVec.ofNat 8 (Nat.xor (f 1 1) 1) ∧
          t.sys.peek (a + 27) = s.time.stepGen ∧
          t.sys.peek (a + 26) = (if (s.net.port (f 4 1)).up = true then 0 else 1) ∧
          ((s.net.port (f 4 1)).up = true → t.sys.peekNat (a + 16) 10 = s.sys.portStamp (f 4 1) 16 % 2 ^ 80) ∧
          ∀ b, b ≠ a + 1 → b < a + 16 ∨ a + 28 ≤ b → t.sys.peek b = s.sys.peek b)

/-! ### Ethernet, fronthaul and links (ch. 16) -/

/-- An IQ message of a configured stream puts its samples into the slot it names, an early, late, malformed or foreign one is counted
and dropped (R463, R464, R465, R466); a delay request is answered to its sender with the receive timestamp (R468); a frame for the host
takes a buffer of ERXQ, a filtered one is counted (R451, R456).
The model's own choices in it are those of log entries 155, 156, 157, 160. -/
def Obligations.FronthaulAndHostReceive : Prop :=
  ∀ (s : State) (port : BitVec 3), s.up = true → (s.net.port port.toNat).up = true →
    (∀ (mac : BitVec 48) (msg : List Byte) (u : Nat), port.toNat ≤ 3 → s.sys.ruOf mac.toNat = some u →
      let cfg := s.sys.reg (0x040108 + 16 * u)
      let pc := beAt msg 0 2
      let n := extendSlot (s.sys.slotOf s.sys.now) (beAt msg 4 4)
      let count := beAt msg 12 2
      let off := beAt msg 8 3
      let run (cls : Nat) : Prop := exec (.ecpriIqReceive port mac msg) s = .next { s with sys := s.sys.count cls }
      let known := (beAt msg 2 2).testBit 7 = true ∧ pc / 256 = bitsOf cfg 8 8 ∧ pc.testBit 7 = false ∧ cfg.testBit (16 + pc % 32) = true
      (¬ known → run Cls.FH_UNKNOWN_PC) ∧
      (known → 1 < beAt msg 11 1 → run Cls.FH_FORMAT) ∧
      (known → beAt msg 11 1 = 0 → 1 ≤ count → count ≤ 2048 → msg.length = 16 + 4 * count → s.job.active = true →
        (n < (s.rx.next : Int) → run Cls.FH_LATE) ∧
        ((s.rx.next : Int) + 1 < n → run Cls.FH_EARLY) ∧
        ((s.rx.next : Int) ≤ n → n ≤ s.rx.next + 1 → off + count ≤ s.sys.streamSamples →
          let key := streamKey n.toNat (pc % 32)
          (∀ e ∈ mapGet (fun _ => []) key s.rx.ingest, e.1 < off ∨ off + count ≤ e.1) →
          ∃ t, exec (.ecpriIqReceive port mac msg) s = .next t ∧ t = { s with sys := t.sys, rx := t.rx } ∧
            mapGet (fun _ => []) key t.rx.ingest = mapGet (fun _ => []) key s.rx.ingest ++
              (List.range count).map (fun i =>
                (off + i, toSigned 16 (beAt msg (16 + 4 * i) 2), toSigned 16 (beAt msg (18 + 4 * i) 2))) ∧
            natAt t.rx.received key = natAt s.rx.received key + count ∧ t.sys.mem = s.sys.mem ∧ t.rx.next = s.rx.next))) ∧
    (∀ (mac : BitVec 48) (id : Byte), port.toNat ≤ 3 → (s.sys.ruOf mac.toNat).isSome = true → s.sys.fhTag = none →
      ∃ fr, exec (.ecpriDelayRequest port mac id) s = .next { s with sys := { s.sys with sent := s.sys.sent ++ [.frame port.toNat fr] } } ∧
        beAt fr 0 6 = mac.toNat ∧ beAt fr 6 6 = macOfPort s.sys port.toNat ∧ beAt fr 12 2 = 0xAEFE ∧ beAt fr 15 1 = 5 ∧
        fr.getD 18 0 = id ∧ fr.getD 19 0 = 1 ∧ (fr.drop 20).take 10 = ptpStamp (s.sys.portStamp port.toNat 0)) ∧
    ∀ frame : List Byte,
      let bs := untag frame
      let h := s.sys.ring 17
      let buf := h.bufBase + h.modPos * 2 ^ h.rxLog2
      let run (cls : Nat) : Prop := exec (.hostFrameReceive port true frame) s = .next { s with sys := s.sys.count cls }
      exec (.hostFrameReceive port false frame) s = .next s ∧
      (s.sys.classify port.toNat bs = .filtered → run Cls.ETH_RX_FILTERED) ∧
      (s.sys.classify port.toNat bs = .host →
        (h.enabled = false → run Cls.ETH_RX_DROP) ∧
        (h.enabled = true → 2 ^ h.rxLog2 < bs.length → run Cls.ETH_RX_TOOLONG) ∧
        (h.enabled = true → bs.length ≤ 2 ^ h.rxLog2 → h.free = 0 → run Cls.ETH_RX_DROP) ∧
        (h.enabled = true → bs.length ≤ 2 ^ h.rxLog2 → 0 < h.free →
          let slot := h.slotAddr h.modPos
          ∃ t, exec (.hostFrameReceive port true frame) s = .next t ∧ t = { s with sys := t.sys } ∧ t.sys.counters = s.sys.counters ∧
            (t.sys.ring 17).modPos = (h.modPos + 1) % h.size ∧ (t.sys.ring 17).seqno = h.seqno + 1 ∧
            t.sys.peek (slot + 1) = BitVec.ofNat 8 port.toNat ∧ t.sys.peekNat (slot + 4) 2 = bs.length % 2 ^ 16 ∧
            t.sys.peekNat (slot + 6) 10 = s.sys.portStamp port.toNat 0 ∧ t.sys.peekNat (slot + 16) 8 = buf % 2 ^ 64 ∧
            ∀ a, a < slot ∨ slot + 32 ≤ a →
              t.sys.peek a = if hostBase + buf ≤ a ∧ a < hostBase + buf + bs.length then bs.getD (a - (hostBase + buf)) 0
                else s.sys.peek a))

/-- Training, loss and fall-back of a port: with every lane trained and usable it comes up at full width; a loss holds it at its width for
500 ms of retraining, its queued frames counted; then it falls back to a narrower width or is down with LINK_DOWN. Under a power cap a
down port trains only in its attempts, one in 10 s (R458, R459, R460, R559). -/
def linkStatesRule : Prop :=
  ∀ (s : State) (port : BitVec 3) (ok : BitVec 8), s.up = true → port.toNat ≤ 5 →
    let p := port.toNat
    let x := s.net.port p
    let full := portLanes s.sys.portMode p
    let allTrain := full ≠ [] ∧ ∀ l ∈ full, ok.getLsbD l = true ∧ s.laneUsable l = true
    let upAt (t : State) (ls : List Nat) : Prop :=
      t.net.port p = { up := true, lanes := ls, degraded := decide (ls.length < full.length) } ∧
        (ls.length < full.length → counted Cls.LINK_DEGRADED s t)
    (8 ≤ s.heron.stage → s.sys.capped = false → x.up = false → x.retrainUntil = none → allTrain →
      ∃ t, exec (.linkTrained port ok) s = .next t ∧ upAt t full ∧ t = { s with sys := t.sys, net := t.net }) ∧
    (s.sys.capped = true → x.retrainUntil = none → exec (.linkTrained port ok) s = .next s) ∧
    (8 ≤ s.heron.stage → s.sys.capped = true → x.up = false → x.retrainUntil = none →
      ((∀ e ∈ s.power.lastAttempt, e.1 = p → e.2 + 10000000000 ≤ s.sys.now) → allTrain →
        ∃ t, exec (.laneTrainingAttempt port ok) s = .next t ∧ upAt t full ∧
          mapGet (fun _ => 0) p t.power.lastAttempt = s.sys.now) ∧
      ∀ e ∈ s.power.lastAttempt, e.1 = p → s.sys.now < e.2 + 10000000000 → exec (.laneTrainingAttempt port ok) s = .next s) ∧
    (x.up = true → ∀ queued : Nat,
      ∃ t, exec (.linkLoss port queued) s = .next t ∧ t = { s with sys := t.sys, net := t.net } ∧
        t.net.port p = { x with up := false, retrainUntil := some (s.sys.now + 500000000) } ∧
        natAt t.sys.counters Cls.ETH_TX_DOWN = min counterMax (natAt s.sys.counters Cls.ETH_TX_DOWN + queued) ∧
        (∀ q, q ≠ p → t.net.port q = s.net.port q) ∧ (4 ≤ p → (t.net.side p).broken = true)) ∧
    ∀ e, x.retrainUntil = some e → e ≤ s.sys.now →
      let found := s.trainable ((s.sys.widths p).filter fun ls => decide (ls.length < x.lanes.length)) ok
      ∃ t, exec (.retrainTimeout port ok) s = .next t ∧ t = { s with sys := t.sys, net := t.net } ∧
        (found = none → t.net.port p = {} ∧ counted Cls.LINK_DOWN s t) ∧ ∀ ls, found = some ls → upAt t ls

/-- Discovery: an LLDPDU leaves a port that is up; on a ring port a neighbour that fits the fabric's set-up is accepted, one that does not
opens the ring there with FABRIC_MISMATCH, and hearing one's own node ID is FABRIC_DUP_NODE (R470, R471). -/
def discoveryRule : Prop :=
  ∀ (s : State) (port : BitVec 3), s.up = true → (s.net.port port.toNat).up = true →
    (∃ fr, exec (.lldpSend port) s = .next { s with sys := { s.sys with sent := s.sys.sent ++ [.frame port.toNat fr] } } ∧
      beAt fr 0 6 = 0x0180C200000E ∧ beAt fr 6 6 = macOfPort s.sys port.toNat ∧ beAt fr 12 2 = 0x88CC ∧ 60 ≤ fr.length) ∧
    ∀ (tlv : BitVec 48) (frame : List Byte), s.sys.fabricOn = true →
      let b (i : Nat) : Nat := bitsOf tlv.toNat (8 * i) 8
      (b 1 = s.sys.node →
        ∃ t, exec (.lldpReceive port (some tlv) frame) s = .next t ∧ t.net = { s.net with dupNode := true } ∧
          counted Cls.FABRIC_DUP_NODE s t) ∧
      (b 1 ≠ s.sys.node → 4 ≤ port.toNat →
        let bad := b 0 ≠ s.sys.fabricId ∨ b 1 / 32 % 2 ≠ s.sys.node / 32 ∨ b 2 ≠ 9 - port.toNat ∨
          64 ≤ b 1 ∨ (s.sys.ringPlace (b 1)).isNone = true ∨ b 3 ≠ s.sys.ringIndex (b 1)
        ∃ t, exec (.lldpReceive port (some tlv) frame) s = .next t ∧ t = { s with sys := t.sys, net := t.net } ∧
          (∀ q, t.net.port q = s.net.port q) ∧ (∀ off, t.sys.reg off = s.sys.reg off) ∧
          (bad → (t.net.side port.toNat).broken = true ∧ counted Cls.FABRIC_MISMATCH s t) ∧
          (¬ bad → (t.net.side port.toNat).neighbour = some (b 1) ∧ (t.net.side port.toNat).broken = false))

/-- Training, loss and fall-back of a port: with every lane trained and usable it comes up at full width; a loss holds it at its width for
500 ms of retraining, its queued frames counted; then it falls back to a narrower width or is down with LINK_DOWN. Under a power cap a
down port trains only in its attempts, one in 10 s (R458, R459, R460, R559). Discovery: an LLDPDU leaves a port that is up; on a ring port
a neighbour that fits the fabric's set-up is accepted, one that does not opens the ring there with FABRIC_MISMATCH, and hearing one's own
node ID is FABRIC_DUP_NODE (R470, R471).
The model's own choices in it are those of log entries 18, 150, 151, 152, 153, 158. -/
def Obligations.LinksAndDiscovery : Prop := linkStatesRule ∧ discoveryRule

/-! ### Fabric packets and flows (ch. 16) -/

/-- A sequenced packet that arrives sound and in order from a node to which nothing is outstanding, acknowledging nothing that
has not been sent. -/
def arrives (x : FabricRx) (s : State) : Prop :=
  s.sys.fabricOn = true ∧ (s.net.port x.port.toNat).up = true ∧ x.good = true ∧ x.reset = false ∧
    x.seq = (s.net.flow x.src.toNat).expect ∧ (s.net.flow x.src.toNat).unacked = [] ∧ (s.net.flow x.src.toNat).waiting = [] ∧
    s.net.dupNode = false ∧ 2 ^ 31 ≤ (x.ack - (s.net.flow x.src.toNat).next).toNat

/-- What a sequenced packet in order leaves beside its own effect: the next SEQ is expected. -/
def advances (x : FabricRx) (s t : State) : Prop :=
  (t.net.flow x.src.toNat).expect = (s.net.flow x.src.toNat).expect + 1 ∧ t.net.ports = s.net.ports ∧ t.net.sides = s.net.sides ∧
    t.net.role = s.net.role ∧ t.heron = s.heron ∧ t.pins = s.pins ∧ t.job = s.job ∧ t.sys.regs = s.sys.regs ∧ t.sys.air = s.sys.air

/-- Remote memory requests: WRITE stores, READ_REQ is answered with the data, either with a NACK where no job runs, the address is absent
or fenced; READ_RESP and NACK end the request they name, NACK as a REMOTE_FAIL fault (R349, R473, R477).
The model's own choices in it are those of log entries 23, 165, 167, 172. -/
def Obligations.RemoteMemory : Prop :=
  ∀ (s : State) (x : FabricRx), s.up = true → arrives x s →
    let d := x.src.toNat
    let a := x.addr.toNat
    let answered (t : State) (kind status : Nat) (body : List Byte) : Prop :=
      ∃ p : FabricPacket, (t.net.flow d).unacked = [((s.net.flow d).next, p)] ∧ (t.net.flow d).next = (s.net.flow d).next + 1 ∧
        p.kind = kind ∧ p.status = status ∧ p.reqId = x.reqId.toNat ∧ p.body = body
    (s.nackReason a x.body.length = none → regionOf a ≠ .control → s.sys.ctxMoving a x.body.length = false →
      ∃ t, exec (.write x) s = .next t ∧ advances x s t ∧ s.sys.stores t.sys ∧
        ∀ b, t.sys.peek b = if a ≤ b ∧ b < a + x.body.length then x.body.getD (b - a) 0 else s.sys.peek b) ∧
    (∀ r, s.nackReason a x.body.length = some r →
      ∃ t, exec (.write x) s = .next t ∧ advances x s t ∧ answered t 0x04 r [] ∧ t.sys.mem = s.sys.mem) ∧
    (∀ n, n = beAt x.body 0 4 → x.body.length = 4 → 0 < n → n ≤ 4096 →
      (∀ r, s.nackReason a n = some r → ∃ t, exec (.readReq x) s = .next t ∧ advances x s t ∧ answered t 0x04 r []) ∧
      (s.nackReason a n = none → regionOf a ≠ .control →
        ∃ t, exec (.readReq x) s = .next t ∧ advances x s t ∧ answered t 0x02 0 (s.sys.peekN a n) ∧ t.sys.mem = s.sys.mem)) ∧
    (s.job.active = false → s.nackReason a x.body.length = some 3) ∧
    ∀ (r : RemoteRequest) (q : Packet), s.net.requests = [r] → r.node = d → r.id % 2 ^ 32 = x.reqId.toNat → q.remote = some r.id →
      (s.core r.core).packets = [q] →
      (r.read = true →
        ∃ t, exec (.readResp x) s = .next t ∧ advances x s t ∧ t.net.requests = [] ∧ (t.core r.core).packets =
          [{ q with data := some ((List.range q.len).map fun i => x.body.getD i 0), poison := x.poison, failed := false }]) ∧
      ∃ t, exec (.nack x) s = .next t ∧ advances x s t ∧ t.net.requests = [] ∧ counted Cls.REMOTE_FAIL s t ∧
        (t.core r.core).packets =
          [{ q with data := some (List.replicate q.len 0), poison := true, failed := true }]

/-- Flows: a damaged packet is counted, one out of order is dropped with an acknowledgement owed; ACK_ONLY frees what it covers; an owed
acknowledgement leaves by itself; 40 µs without progress send the flow again, a seventh time resets it with its requests failed. COMBINE
in time joins its burst, late it is counted; SEQ_SYNC of the partner is taken over; a packet for another node goes on round the ring
(R105, R473, R474, R478, R483).
The model's own choices in it are those of log entries 71, 161, 162, 163, 164. -/
def Obligations.FabricFlows : Prop :=
  (∀ (s : State) (x : FabricRx), s.up = true → s.sys.fabricOn = true → (s.net.port x.port.toNat).up = true →
    let f := s.net.flow x.src.toNat
    ∀ c ∈ [Instr.readReq x, .readResp x, .write x, .nack x, .combine x, .seqSync x],
      (x.good = false → exec c s = .next { s with sys := s.sys.count Cls.FABRIC_RX_BAD }) ∧
      (x.good = true → x.reset = false → x.seq ≠ f.expect → f.unacked = [] →
        exec c s = .next { s with net := s.net.setFlow x.src.toNat { f with owed := f.owed <|> some s.sys.now } })) ∧
  (∀ (s : State) (x : FabricRx), s.up = true → arrives x s →
    (s.job.active = false → ∃ t, exec (.combine x) s = .next t ∧ advances x s t ∧ t.rx = s.rx ∧ t.sys = s.sys) ∧
    (s.job.active = true → s.rx.refusedCombine = [] → s.rx.contributions = [] → s.rx.bursts = [] → s.rx.seen = [] →
      (s.sys.now < (s.sys.slotOf (beAt x.body 16 8) + 1) * s.sys.slotLen + s.job.combineWait * 1000 →
        ∃ t c, exec (.combine x) s = .next t ∧ advances x s t ∧ t.rx = { s.rx with contributions := [c] } ∧ t.sys = s.sys ∧
          c.node = x.src.toNat ∧ c.shortId.toNat = beAt x.body 0 4 % 2 ^ 20 ∧ c.profile = beAt x.body 0 4 / 2 ^ 20 % 16 ∧
          c.kind = beAt x.body 4 1 ∧ c.lenM1 = beAt x.body 5 1 ∧ c.channel.toNat = beAt x.body 6 2 ∧ c.start = beAt x.body 8 8 ∧
          c.finish = beAt x.body 16 8) ∧
      ((s.sys.slotOf (beAt x.body 16 8) + 1) * s.sys.slotLen + s.job.combineWait * 1000 ≤ s.sys.now →
        ∃ t, exec (.combine x) s = .next t ∧ advances x s t ∧ t.rx.contributions = [] ∧ counted Cls.COMBINE_LATE s t)) ∧
    (∀ sid, sid = beAt x.body 0 4 % 2 ^ 20 → s.sys.pairOn = true → x.src.toNat = s.sys.partner → s.sys.registered sid = true →
      ∃ t, exec (.seqSync x) s = .next t ∧ advances x s t ∧ s.sys.stores t.sys ∧
        ∀ a ∈ s.sys.recordCopies sid, t.sys.peek (a + 0x200) = BitVec.ofNat 8 (beAt x.body 0 4 / 2 ^ 24) ∧ t.sys.peek (a + 0x201) = 1)) ∧
  (∀ (s : State) (x : FabricRx), s.up = true → s.sys.fabricOn = true → (s.net.port x.port.toNat).up = true → x.good = true →
    (s.net.flow x.src.toNat).waiting = [] → s.net.requests = [] →
    ∃ t, exec (.ackOnly x) s = .next t ∧ t = { s with net := t.net } ∧
      (t.net.flow x.src.toNat).unacked = (s.net.flow x.src.toNat).unacked.filter fun e => decide (2 ^ 31 ≤ (x.ack - e.1).toNat)) ∧
  (∀ (s : State) (node : BitVec 6), s.up = true →
    let d := node.toNat
    let f := s.net.flow d
    (∀ port mac, f.owed.isSome = true → s.net.dupNode = false → s.route d = some (port, mac) →
      ∃ bytes, exec (.flowAckSend node) s = .next { s with
          sys := { s.sys with sent := s.sys.sent ++ [.fabric port mac bytes false] },
          net := s.net.setFlow d { f with owed := none } } ∧
        bytes.length = 32 ∧ bytes.getD 1 0 = 0x23 ∧ beAt bytes 3 1 = d ∧ beAt bytes 8 4 = (f.expect - 1).toNat) ∧
    (f.unacked ≠ [] → f.since + 40000 ≤ s.sys.now →
      (f.tries < 6 → ∃ t, exec (.retxTimeout node) s = .next t ∧ t = { s with sys := t.sys, net := t.net } ∧
        (t.net.flow d).tries = f.tries + 1 ∧ (t.net.flow d).since = s.sys.now ∧ (t.net.flow d).unacked = f.unacked ∧
        t.net.linkRetry = true ∧ t.net.requests = s.net.requests) ∧
      (6 ≤ f.tries → ∃ t, exec (.retxTimeout node) s = .next t ∧ (t.net.flow d).unacked = [] ∧ (t.net.flow d).waiting = [] ∧
        (t.net.flow d).reset = some f.next ∧ (∀ r ∈ t.net.requests, r.node ≠ d) ∧
        natAt t.sys.counters Cls.COMBINE_LOST = min counterMax (natAt s.sys.counters Cls.COMBINE_LOST +
          ((f.unacked.map Prod.snd ++ f.waiting).filter fun p => p.kind == 0x10).length)))) ∧
  ∀ (s : State) (port : BitVec 3) (packet : List Byte), s.up = true → port.toNat = 4 ∨ port.toNat = 5 →
    (s.net.port 4).up = true → (s.net.port 5).up = true → s.pins.bypassState = false →
    exec (.fabricTransit port packet) s = .next { s with
      sys := { s.sys with sent := s.sys.sent ++ [.fabric (9 - port.toNat) 0 packet false] } }

/-! ### Ring supervision, redundant pair, Causeway (ch. 16) -/

/-- Keepalives leave both ring links, their arrival makes a link of an accepted neighbour sound, the third miss or a lost lock breaks it,
and what other modules report is kept and sent on (R475). -/
def ringSupervisionRule : Prop :=
  ∀ (s : State) (port : BitVec 3), s.up = true →
    let p := port.toNat
    let x := s.net.side p
    ((s.net.port 4).up = true → (s.net.port 5).up = true → s.sys.fabricOn = true → s.net.dupNode = false → s.pins.bypassState = false →
      ∃ k l m n, exec .keepaliveSend s = .next { s with sys := { s.sys with
          sent := s.sys.sent ++ [.fabric 4 0 k false, .fabric 5 0 l false, .fabric 4 0 m false, .fabric 5 0 n false] } } ∧
        k.getD 1 0 = 0x20 ∧ l.getD 1 0 = 0x20 ∧ m.getD 1 0 = 0x21 ∧ n.getD 1 0 = 0x21) ∧
    (4 ≤ p → (s.net.port p).up = true →
      (s.sys.fabricOn = true →
        exec (.keepalive port false) s = .next { s with sys := s.sys.count Cls.FABRIC_RX_BAD } ∧
        ∃ t, exec (.keepalive port true) s = .next t ∧ t = { s with sys := { s.sys with sent := t.sys.sent }, net := t.net } ∧
          t.net = s.net.setSide p { x with misses := 0, broken := x.broken && x.neighbour.isNone } ∧
          (x.broken = false → t.sys = s.sys)) ∧
      (∀ lockLost : Bool, ∃ t, exec (.keepaliveMiss port lockLost) s = .next t ∧
        t = { s with sys := { s.sys with sent := t.sys.sent }, net := t.net } ∧
        t.net = s.net.setSide p { x with
          misses := min 3 (x.misses + 1), broken := x.broken || lockLost || decide (2 ≤ x.misses) }) ∧
      ∀ (src : BitVec 6) (e w : Bool) (bypass : BitVec 32) (packet : List Byte), s.sys.fabricOn = true → s.pins.bypassState = false →
        (src.toNat = s.sys.node → exec (.ringState port true src e w bypass packet) s = .next s) ∧
        (src.toNat ≠ s.sys.node → (s.net.port (9 - p)).up = true →
          exec (.ringState port true src e w bypass packet) s = .next { s with
            sys := { s.sys with sent := s.sys.sent ++ [.fabric (9 - p) 0 packet false] },
            net := { s.net with peers := natPut s.net.peers src.toNat (e.toNat + 2 * w.toNat + 4 * bypass.toNat) } }))

/-- The redundant pair's heartbeats and takeover (R484, R485), and the Causeway: any cause closes it and takes both ring ports down, it
opens when none holds and the ring SerDes are powered (R480). -/
def pairAndCausewayRule : Prop :=
  (∀ s : State, s.up = true → s.sys.pairOn = true →
    (∀ port mac, s.sys.fabricOn = true → s.net.dupNode = false → s.job.active = false → s.sys.switched s.sys.partner = some (port, mac) →
      (s.net.port port).up = true →
      ∃ t bytes, exec .pairHbSend s = .next t ∧ t = { s with sys := t.sys, net := t.net } ∧
        t.sys = { s.sys with sent := s.sys.sent ++ [.fabric port mac bytes false] } ∧
        t.net.role = s.net.roleNext.getD s.net.role ∧ t.net.roleNext = none ∧ bytes.length = 48 ∧ bytes.getD 1 0 = 0x22 ∧
        beAt bytes 32 8 = s.sys.slotOf s.sys.now % 2 ^ 64 ∧ bytes.getD 40 0 = BitVec.ofNat 8 t.net.role ∧
        (bytes.getD 41 0).getLsbD 0 = (s.job.state == .running) ∧ (bytes.getD 41 0).getLsbD 1 = !s.time.timingUnsafe ∧
        (bytes.getD 41 0).getLsbD 2 = s.net.faulted ∧ (bytes.getD 41 0).getLsbD 3 = s.net.relinquish) ∧
    (∀ (src : BitVec 6) (slot : BitVec 64) (role flags : Byte), s.sys.fabricOn = true → src.toNat = s.sys.partner →
      flags.getLsbD 2 = false → flags.getLsbD 3 = false →
      (s.net.role ≠ 2 ∨ role ≠ 2 → exec (.pairHb true src slot role flags) s = .next { s with
        net := { s.net with partnerSlot := some slot.toNat } }) ∧
      (s.net.role = 2 → role = 2 → exec (.pairHb true src slot role flags) s = .next { s with
        sys := s.sys.count Cls.PAIR_DUAL_ACTIVE,
        net := { s.net with
          partnerSlot := some slot.toNat, roleNext := if 32 ≤ s.sys.node then some 1 else s.net.roleNext } })) ∧
    (∀ p, s.net.partnerSlot = some p → s.net.role = 1 → p + 3 ≤ s.sys.slotOf s.sys.now →
      (s.mayTake = true → ∃ t, exec .pairTakeover s = .next t ∧ t = { s with sys := t.sys, net := t.net } ∧ s.sys.reports t.sys ∧
        t.net = { s.net with role := 2, roleNext := none } ∧ counted Cls.PAIR_TAKEOVER s t) ∧
      (s.mayTake = false → exec .pairTakeover s = .next { s with sys := s.sys.count Cls.PAIR_NO_TAKEOVER }))) ∧
  ∀ s : State,
    let closed (t : State) : Prop :=
      t = { s with pins := t.pins, net := t.net } ∧ t.pins.bypassState = true ∧ t.net.port 4 = {} ∧ t.net.port 5 = {} ∧
        (t.net.side 4).broken = true ∧ (t.net.side 5).broken = true ∧ (∀ q, q < 4 → t.net.port q = s.net.port q)
    let cause := s.heron.powered = false ∨ s.heron.inReset = true ∨ s.heron.recovery = true ∨ s.heron.moduleStop = true ∨
      s.pins.bypassForce = true
    (cause → ∃ t, exec .causewayClose s = .next t ∧ closed t ∧ t.pins = { s.pins with bypassState := true }) ∧
    (¬ cause → exec .causewayClose s = .next s) ∧
    (¬ cause → s.net.ringPowered = true → s.sys.fabricOn = true → 8 ≤ s.heron.stage →
      exec .causewayOpen s = .next { s with pins := { s.pins with bypassState := false } }) ∧
    (∃ t, exec (.bypassForce true) s = .next t ∧ closed t ∧ t.pins = { s.pins with bypassForce := true, bypassState := true }) ∧
    exec (.bypassForce false) s = .next { s with pins := { s.pins with bypassForce := false } }

/-- Keepalives leave both ring links, their arrival makes a link of an accepted neighbour sound, the third miss or a lost lock breaks it,
and what other modules report is kept and sent on (R475). The redundant pair's heartbeats and takeover (R484, R485), and the Causeway: any
cause closes it and takes both ring ports down, it opens when none holds and the ring SerDes are powered (R480).
The model's own choices in it are those of log entries 19, 149, 166, 168, 169, 170. -/
def Obligations.RingsPairsAndCauseway : Prop := ringSupervisionRule ∧ pairAndCausewayRule

/-! ### The Sluice (ch. 18) -/

/-- The nine conditions of Table 18-2 on a frame at the Sluice and its samples as received there. -/
def sluicePasses (s : State) (d : SluiceDesc) (samples : List (Int × Int)) (poison : Bool) : Prop :=
  let first := d.firstBin.toNat
  let prof := profileOf d.profile
  let finish := d.start + frameNs d.profile (d.lenM1 + 1)
  let bins := (List.range d.width).map fun k => first + k
  s.muted = false ∧ poison = false ∧ prof.width = channelWidth d.channel ∧
    samples.length = downlinkSamples (downlinkDataSymbols prof (d.lenM1 + 1)) ∧
    s.sys.now + 150000 ≤ d.start ∧ d.start ≤ s.sys.now + 2 * s.sys.slotLen ∧
    (∀ p ∈ s.sluice.passed, s.sys.now < p.finish → first < p.firstBin + p.bins → p.firstBin < first + d.width →
      d.start < p.finish → finish ≤ p.start) ∧
    anyDeviation samples = false ∧
    ∃ w, s.sys.windowOf first d.width = some w ∧ descUnits d ≤ bitsOf (s.sys.winBins w) 48 10 * 1000000 * unitsPerNs ∧
      anyLoud (bitsOf (s.sys.winBins w) 32 16) samples = false ∧
      ∀ b ∈ bins, flagAt s.sluice.blocked b = false ∧ s.dutySum b + dutyCharge d ≤ bitsOf (s.sys.winDuty w) 0 20

/-- A frame handed to the Sluice passes exactly when all its conditions hold: then it is charged to the duty history of its bins and joins
the frames that have passed; else nothing is charged and none joins them. A mute discards it, poison is counted, and a wrong width is
a violation that mutes (R516, R518, R519, R521, R522). -/
def sluiceChecksRule : Prop :=
  ∀ (s : State) (i : SluiceIn) (f : HandedFrame) (rest : List HandedFrame), s.up = true → s.downlink.handed = f :: rest →
    i.bucketUe = [] → i.sumUe = [] → 0 < f.desc.width →
    let d := f.desc
    let live := s.sluice.passed.filter fun p => decide (s.sys.now < p.finish)
    ∃ t, exec (.sluiceCheck i) s = .next t ∧ t.downlink.handed = rest ∧ t.heron = s.heron ∧ t.pins = s.pins ∧ t.time = s.time ∧
      (∀ off, t.sys.reg off = s.sys.reg off) ∧
      (sluicePasses s d (f.received i) i.poison → (∃ p, t.sluice.passed = live ++ [p] ∧ p.firstBin = d.firstBin.toNat ∧ p.bins = d.width ∧
          p.start = d.start ∧ p.finish = d.start + frameNs d.profile (d.lenM1 + 1) ∧ p.cancelled = false) ∧
        (∀ b, natAt t.sluice.sums b = natAt s.sluice.sums b +
          (if d.firstBin.toNat ≤ b ∧ b < d.firstBin.toNat + d.width then dutyCharge d else 0)) ∧
        t.sluice.muteViolation = s.sluice.muteViolation ∧
        (∀ unit stream, s.downlinkUnit d.channel = some (unit, stream) → s.standby = false →
          ∃ p more, t.sluice.passed = live ++ [p] ∧ t.sys.sent = s.sys.sent ++
            controlMessage s.sys p unit (f.received i).length :: iqMessages s.sys p unit (f.received i) ++ more)) ∧
      (¬ sluicePasses s d (f.received i) i.poison → t.sluice.passed.length = live.length ∧ t.sluice.sums = s.sluice.sums ∧
        t.sluice.buckets = s.sluice.buckets) ∧
      (s.muted = true → counted Cls.DL_MUTED s t) ∧
      (s.muted = false → i.poison = true → counted Cls.DL_POISON s t ∧ counted Cls.DL_GUARD s t ∧ t.sluice.lastCheck = 2 ∧
        t.sluice.lastViolation = false ∧ t.sluice.muteViolation = s.sluice.muteViolation) ∧
      (s.muted = false → i.poison = false → (profileOf d.profile).width ≠ channelWidth d.channel →
        counted Cls.GUARD_VIOLATION s t ∧ t.sluice.muteViolation = true ∧ t.muted = true ∧ t.sluice.lastCheck = 3 ∧
          t.sluice.lastViolation = true ∧ t.sluice.lastChannel = d.channel)

/-- The Sluice's own time and self-test: a new second takes the bucket that leaves the hour from every sum, an hour ends the preload, a
recomputed sum is its buckets' sum and unblocks its bin, a self-test is due every 1,000 slots and a failed one mutes for good with FAULT_N
(R519, R520, R523, R524, R534). -/
def sluiceUpkeepRule : Prop :=
  ∀ s : State, s.up = true →
    (s.sluice.released = true → 1000000000 * 2 ^ 32 ≤ s.sluice.accum →
      let n := (s.sluice.second + 1) % 3600
      ∃ t, exec .sluiceSecond s = .next t ∧ t = { s with sluice := t.sluice } ∧ t.sluice.second = n ∧
        t.sluice.accum = s.sluice.accum - 1000000000 * 2 ^ 32 ∧ t.sluice.seconds = s.sluice.seconds + 1 ∧ t.sluice.advance = [] ∧
        ∀ b, natAt s.sluice.sums b ≠ 0 →
          natAt t.sluice.sums b = natAt s.sluice.sums b - natAt s.sluice.buckets (b * 3600 + n) ∧
          natAt t.sluice.buckets (b * 3600 + n) = natAt s.sluice.advance b) ∧
    (s.sluice.accum < 1000000000 * 2 ^ 32 → exec .sluiceSecond s = .next s) ∧
    (s.sluice.preloadActive = true → 3600 ≤ s.sluice.seconds →
      exec .preloadEnd s = .next { s with sluice := { s.sluice with preloadActive := false } }) ∧
    (s.sluice.seconds < 3600 → exec .preloadEnd s = .next s) ∧
    (∀ bin : BitVec 13, flagAt s.sluice.blocked bin.toNat = true →
      ∃ t, exec (.dutySumRecomputeDone bin) s = .next t ∧ t = { s with sluice := t.sluice } ∧ flagAt t.sluice.blocked bin.toNat = false ∧
        natAt t.sluice.sums bin.toNat = natAt s.sluice.advance bin.toNat +
          ((s.sluice.buckets.filter fun e => e.1 / 3600 == bin.toNat).map Prod.snd).sum ∧
        ∀ b, b ≠ bin.toNat → natAt t.sluice.sums b = natAt s.sluice.sums b) ∧
    (s.sluice.released = true → s.sluice.lastRun + 1000 ≤ s.sys.slotOf s.sys.now →
      exec (.selftestFrame false) s = .next { s with sluice := { s.sluice with
        runs := s.sluice.runs + 1, nextKind := (s.sluice.nextKind + 1) % 6, lastRun := s.sys.slotOf s.sys.now } } ∧
      ∃ t, exec (.selftestFrame true) s = .next t ∧ t.sluice.failed = true ∧ t.sluice.muteSelftest = true ∧ t.muted = true ∧
        t.pins = { s.pins with faultN := false } ∧ t.sluice.runs = s.sluice.runs + 1 ∧ counted Cls.GUARD_SELFTEST_FAIL s t ∧
        t.heron = s.heron ∧ t.job = s.job ∧ (s.net.role = 2 → t.net.role = 1))

/-- A frame handed to the Sluice passes exactly when all its conditions hold: then it is charged to the duty history of its bins and joins
the frames that have passed; else nothing is charged and none joins them. A mute discards it, poison is counted, and a wrong width
is a violation that mutes (R516, R518, R519, R521, R522). The Sluice's own time and self-test: a new second takes the bucket that leaves
the hour from every sum, an hour ends the preload, a recomputed sum is its buckets' sum and unblocks its bin, a self-test is due every
1,000 slots and a failed one mutes for good with FAULT_N (R519, R520, R523, R524, R534).
The model's own choices in it are those of log entries 91, 145, 146, 148, 227, 260, 261. -/
def Obligations.SluiceRows : Prop := sluiceChecksRule ∧ sluiceUpkeepRule

/-! ### Errors of memory and registers (ch. 17) -/

/-- The compare of triplicated words leaves three equal copies of what they voted for, counting each rewrite; copies without a majority act
by the word's class: a safety setting stops the module, the time increment stands, GUARD_CTRL without one turns the Sluice off (R495, R496).
The model's own choices in it are those of log entries 178, 179, 180. -/
def Obligations.TriplicatedWords : Prop :=
  ∀ s : State, s.up = true →
    (natAt s.sys.counters Cls.TMR_CORRECT ≤ counterMax → ∃ t, exec (.tmrCompare []) s = .next t ∧ (∀ off, t.sys.tmrWord off = {} ∧ t.sys.reg off = s.sys.reg off) ∧
      t.heron = { s.heron with shadowTmr := {} } ∧ t.sys.mem = s.sys.mem ∧
      natAt t.sys.counters Cls.TMR_CORRECT = min counterMax (natAt s.sys.counters Cls.TMR_CORRECT + s.sys.regs.tmr.length +
        (if s.heron.shadowTmr = {} then 0 else 1))) ∧
    (s.sys.regs.tmr = [] → s.heron.shadowTmr = {} → ∀ u : TmrUpset, u.shadow = false →
      (u.flipB = 0 → u.flipC = 0 → u.bad = 0 → u.off = 0x050010 ∨ u.off = 0x050014 ∨ u.off = 0x090020 ∨ u.off = 0x050008 →
        ∃ t, exec (.tmrCompare [u]) s = .next t ∧ (∀ off, t.sys.reg off = s.sys.reg off) ∧
          t = { s with sys := { s.sys with regs := t.sys.regs } }) ∧
      (u.bad = 3 →
        (u.off = 0x050010 ∨ u.off = 0x050014 ∨ u.off = 0x090020 → s.heron.moduleStop = false →
          stopsWith 5 (.tmrCompare [u]) s) ∧
        (u.off = 0x050008 → ∃ t, exec (.tmrCompare [u]) s = .next t ∧ counted Cls.TMR_FAIL s t ∧ t.heron = s.heron ∧
          ∀ off, t.sys.reg off = s.sys.reg off) ∧
        (u.off = 0x060000 → ∃ t, exec (.tmrCompare [u]) s = .next t ∧ counted Cls.TMR_FAIL s t ∧ t.masterOn = false ∧ t.muted = true ∧
          t.heron = s.heron)))

/-- The scrubbers: a read without errors changes nothing and moves on; one that meets a corrected error counts it, an uncorrectable one
leaves the word poisoned with SCRUB_UE; a write-back replaces the word only as it was read. Unit memories: one flipped bit is counted, two
fence the core with a fault (R494, R502, R505 to R507).
The model's own choices in it are those of log entries 186, 190, 191, 193. -/
def Obligations.Scrubbing : Prop :=
  ∀ s : State, s.up = true →
    (∀ key : BitVec 11, key.toNat < 1040 → natAt s.storage.scrubPos key.toNat + 1 < scrubLength key.toNat →
      let a := scrubAddr key.toNat (natAt s.storage.scrubPos key.toNat)
      s.sys.localFault a = none → s.refreshing a = false → s.job.active = false →
      (∃ t, exec (.scrubRead key [] []) s = .next t ∧ t.sys.poison = s.sys.poison ∧
        natAt t.storage.scrubPos key.toNat = natAt s.storage.scrubPos key.toNat + 1 ∧ t.storage.corrected = s.storage.corrected ∧
        t = { s with sys := t.sys, storage := t.storage } ∧ s.sys.reports t.sys) ∧
      ∀ errs : ReadErrors, s.sys.lineValid a = true →
        ((decodeAt a errs).bad = true → ∃ t, exec (.scrubRead key errs []) s = .next t ∧ counted Cls.SCRUB_UE s t ∧
          flagAt t.sys.poison a = true ∧ natAt t.storage.scrubPos key.toNat = natAt s.storage.scrubPos key.toNat + 1) ∧
        ((decodeAt a errs).bad = false → (decodeAt a errs).corrected = true → ∃ t, exec (.scrubRead key errs []) s = .next t ∧
          natAt t.storage.corrected key.toNat = min (2 ^ 32 - 1) (natAt s.storage.corrected key.toNat + 1) ∧
          counted (if key.toNat < 16 then Cls.CE_LPDDR else Cls.CE_PEAT) s t)) ∧
    (∀ (key : BitVec 11) (a : Nat) (stored fixed : List Byte) (rest : List (Nat × List Byte × List Byte)),
      s.storage.queue key.toNat = (a, stored, fixed) :: rest → s.writeBacksWait = false → s.sys.localFault a = none →
      s.refreshing a = false →
      ∃ t, exec (.scrubWriteback key) s = .next t ∧ t.storage.queue key.toNat = rest ∧
        t = { s with sys := t.sys, storage := t.storage } ∧ s.sys.stores t.sys ∧
        (s.sys.peekN a stored.length ≠ stored → t.sys = s.sys) ∧
        (s.sys.peekN a stored.length = stored → ∀ b, t.sys.peek b =
          if a ≤ b ∧ b < a + fixed.length then fixed.getD (b - a) 0 else s.sys.peek b)) ∧
    ∀ (unit word : BitVec 16) (p q : Nat), p < 72 → q < 72 → p ≠ q → unit.toNat < 1024 → s.sys.coreFenced unit.toNat = false →
      let fenced (kind : BitVec 2) (cls : Nat) : Prop :=
        ∃ t, exec (.unitScrub kind unit word [p, q]) s = .next t ∧ counted cls s t ∧ t.sys.coreFenced unit.toNat = true ∧
          ∀ c, c ≠ unit.toNat → t.core c = s.core c
      exec (.unitScrub 0 unit word [p]) s = .next { s with sys := s.sys.countLocal Cls.CE_CMD 1 } ∧
      exec (.unitScrub 1 unit word [p]) s = .next { s with sys := s.sys.countLocal Cls.CE_SU 1 } ∧
      fenced 0 Cls.CMD_ECC ∧ fenced 1 Cls.SU_ECC

/-! ### Power, thermal control, quarters (ch. 19) -/

/-- Removal of vector work follows the cap in steps of 1/64 and a reading at the limit begins the thermal throttle at
8/64; VDD_C targets move by 5 mV between
650 and 800 mV and set the alert until it is cleared; refresh blocks its channel for 280 ns (R343, R558, R561, R562, R608).
The model's own choices in it are those of log entries 181, 182, 183, 184, 186. -/
def Obligations.PowerAndThermal : Prop :=
  ∀ s : State,
    (s.up = true → ∀ estimate : BitVec 16,
      ∃ t, exec (.powerCapControl estimate) s = .next t ∧ t = { s with sys := t.sys, power := t.power } ∧ s.sys.reports t.sys ∧
        t.power.estimate = estimate.toNat ∧ t.power.thermRemoval = s.power.thermRemoval ∧ t.power.vddc = s.power.vddc ∧
        (s.powerCap < estimate.toNat → t.power.capRemoval = min 56 (s.power.capRemoval + 1)) ∧
        (estimate.toNat ≤ s.powerCap → t.power.capUnmet = false ∧ t.power.capRemoval =
          if estimate.toNat * 100 < s.powerCap * 95 then s.power.capRemoval - 1 else s.power.capRemoval)) ∧
    (s.up = true → ∀ (q : BitVec 2) (readings : List Int), s.sys.quarterGone q.toNat = false → readings.length = 20 → 4 ≤ s.heron.stage →
      let on : Int := s.sys.regField 0x090020 0 8
      let old := natAt s.power.thermRemoval q.toNat
      ∃ t, exec (.thermalSensorRead q readings) s = .next t ∧ t = { s with sys := t.sys, power := t.power } ∧ s.sys.reports t.sys ∧
        (∀ i, i < 20 → mapGet noReading (sensorIndex q.toNat i) t.power.reading = readings.getD i 0) ∧
        (∀ k, k ≠ q.toNat → natAt t.power.thermRemoval k = natAt s.power.thermRemoval k) ∧
        ((∃ r ∈ readings, on ≤ r) → old = 0 → natAt t.power.thermRemoval q.toNat = 8 ∧ counted Cls.THERM_THROTTLE s t) ∧
        ((∀ r ∈ readings, r < on) → natAt t.power.thermRemoval q.toNat ≤ old) ∧
        ((∀ r ∈ readings, r < on - 3) → old = 1 → natAt s.power.thermSince q.toNat + 1000000 ≤ s.sys.now →
          natAt t.power.thermRemoval q.toNat = 0 ∧ counted Cls.THERM_THROTTLE s t)) ∧
    (s.up = true → ∀ (q : BitVec 2) (raise : Bool),
      let new := if raise then s.vddcTarget q.toNat + 5 else s.vddcTarget q.toNat - 5
      (650 ≤ new → new ≤ 800 → s.sys.quarterGone q.toNat = false → s.power.vddcSince = [] →
        ∃ t, exec (.vddcTargetStep q raise) s = .next t ∧ t = { s with power := t.power, pins := { s.pins with smbAlertN := false } } ∧
          t.vddcTarget q.toNat = new ∧ (∀ k, k ≠ q.toNat → t.vddcTarget k = s.vddcTarget k) ∧ t.power.vddcChanged = true) ∧
      (new < 650 ∨ 800 < new → exec (.vddcTargetStep q raise) s = .next s)) ∧
    (s.heron.powered = true →
      exec .vddcChangedClear s = .next { s with
        power := { s.power with vddcChanged := false }, pins := { s.pins with smbAlertN := true } }) ∧
    (s.up = true → ∀ ch : BitVec 4, ∃ t, exec (.lpddr6Refresh ch) s = .next t ∧ t = { s with storage := t.storage } ∧
      natAt t.storage.refreshUntil ch.toNat = s.sys.now + 280 ∧
      ∀ a, regionOf a = .lpddr ch.toNat → t.refreshing a = true)

/-- A lane of the die-to-die links with 64 corrected errors moves to a spare; a lost quarter other than that of base die 0 goes dead with a
QUARTER_LOST fault, and an alarm of the SerDes rails takes the links it names down (R460, R532, R542, R604).
The model's own choices in it are those of log entries 177, 185. -/
def Obligations.QuartersAndLanes : Prop :=
  ∀ s : State, s.up = true →
    (∀ q : BitVec 2, q ≠ 0 → s.sys.quarterGone q.toNat = false →
      ∃ t, exec (.quarterLost q) s = .next t ∧ t.sys.quarterGone q.toNat = true ∧ t.sys.fences.everLost.getLsbD q.toNat = true ∧
        counted Cls.QUARTER_LOST s t ∧ t.up = true ∧ t.job = s.job ∧ t.sys.jobFault.isSome = true ∧
        (∀ c, c / 256 = q.toNat → t.sys.coreFenced c = true) ∧ (∀ r, r ≠ q.toNat → t.sys.quarterGone r = s.sys.quarterGone r) ∧
        ∀ off, t.sys.reg off = s.sys.reg off) ∧
    (∀ (link : BitVec 2) (dir : BitVec 1) (lane : BitVec 10) (errors : Nat),
      (errors < 64 → exec (.laneSpared link dir lane errors) s = .next { s with sys := s.sys.countN Cls.CE_NOC errors }) ∧
      (64 ≤ errors → s.sparesLeft link.toNat dir.toNat ≠ 0 →
        ∃ t, exec (.laneSpared link dir lane errors) s = .next t ∧ counted Cls.LANE_SPARED s t ∧
          t = { s with sys := t.sys, heron := { s.heron with spares := t.heron.spares } } ∧
          t.sparesLeft link.toNat dir.toNat = s.sparesLeft link.toNat dir.toNat - 1 ∧
          natAt t.sys.counters Cls.CE_NOC = min counterMax (natAt s.sys.counters Cls.CE_NOC + errors)) ∧
      (64 ≤ errors → s.sparesLeft link.toNat dir.toNat = 0 →
        ∃ t, exec (.laneSpared link dir lane errors) s = .next t ∧ t.sys.quarterGone (quarterBeyond link.toNat) = true)) ∧
    ∀ (rail : BitVec 4) (queued : List Nat), rail = 8 ∨ rail = 9 →
      exec (.railAlarm rail 0 queued) s = .next s ∧
      ∃ t, exec (.railAlarm rail 0b000001 queued) s = .next t ∧
        ((s.net.port 0).up = true → (t.net.port 0).up = false ∧ (t.net.port 0).retrainUntil = some (s.sys.now + 500000000)) ∧
        ∀ p, p ≠ 0 → t.net.port p = s.net.port p

/-! ### Cores: sequencing and synchronisation (ch. 6, 11) -/

/-- A command without operands and loops stands next on a core and passes the checks of its word. -/
def plainCommand (i : Issue) (op : Nat) (w : Cmd) (s : State) : Prop :=
  s.up = true ∧ s.current i = some w ∧ i.ecc = false ∧ w.opcode = op ∧ w.levels = 0 ∧ w.opValid 0 = false ∧ w.opValid 1 = false ∧
    w.opValid 2 = false

/-- A command with operands stands next on a core: `p` holds their bases, which are aligned, and it is no dealt command of no step. -/
def atCommand (i : Issue) (op : Nat) (w : Cmd) (p : PortCmd) (s : State) : Prop :=
  s.up = true ∧ s.current i = some w ∧ i.ecc = false ∧ w.opcode = op ∧ (s.core i.core.toNat).resolve w = some p ∧
    aligned p = true ∧ dealtZero w = false

/-- Every other core stands. -/
def othersStand (c : Nat) (s t : State) : Prop := ∀ d, d ≠ c → t.core d = s.core d

/-- Issue itself: SEQ.NOP does nothing more than complete. The program goes on, cycles held are counted, and without trace and race checks nothing else
changes; a race stops the core exactly when RACE_FATAL is set. A command word that does not check is fenced with CMD_ECC (R192, R195, R197,
R220, R223). -/
def issueRules : Prop :=
  ∀ (s : State) (i : Issue) (w : Cmd),
    let c := i.core.toNat
    (plainCommand i 0x00 w s →
      ∃ t, exec (.seqNop i) s = .next t ∧ t = { s.issued i w with cores := t.cores } ∧ othersStand c s t ∧
        natAt t.sys.unfolded Cls.ISSUE_HOLD = natAt s.sys.unfolded Cls.ISSUE_HOLD + i.held ∧
        (w.traced = false → s.jobMode 2 1 = 0 →
          t = { s with cores := t.cores, sys := { s.sys with unfolded := t.sys.unfolded } }) ∧
        (t.core c).dones = (s.core c).dones ++ (if w.signalDone then [w.doneObj] else []) ∧
        ∀ r, (s.core c).stream = some r → r.reps = [] →
          let races := s.jobMode 2 1 = 1 ∧ s.jobMode 3 1 = 1 ∧ ∃ x ∈ i.races, Machine.Race.ok x = true
          (¬ races → (t.core c).stream = some { r with pc := r.pc + 1, waiting := false }) ∧
          (races → (t.core c).stream = some { r with pc := r.pc + 1, waiting := false, stopped := true } ∧ t.current i = none)) ∧
    (s.up = true → s.current i = some w → i.ecc = true →
      ∀ x ∈ [Instr.seqEnd i, .seqRepeat i, .seqBarrier i, .seqMark i, .synSet i, .synAdd i, .synSignal i, .arrLoad i, .vecChain i,
          .movGet i, .movPut i, .sigStart i],
        ∃ t, exec x s = .next t ∧ t.sys.coreFenced c = true ∧ counted Cls.CMD_ECC s t ∧ (t.core c).stream = none ∧ othersStand c s t)

/-- SEQ commands: END stops issue, and the stream ends when every unit is idle; REPEAT opens a range; WAIT issues when its condition holds;
BARRIER holds issue and counts a participant's arrival at its cluster, the cluster's last one at its quarter; MARK leaves a trace record; CALL of
an absent routine faults and one of a patch routine does what the firmware put there (R32, R207 to R211, R213, R219, R362, R363). -/
def sequencerRows : Prop :=
  ∀ (s : State) (i : Issue) (w : Cmd),
    let c := i.core.toNat
    let u := s.issued i w
    (plainCommand i 0x01 w s → ∀ r, (s.core c).stream = some r →
      ∃ t, exec (.seqEnd i) s = .next t ∧ t = { u with cores := t.cores } ∧ othersStand c s t ∧ t.current i = none ∧
        ∃ r', (t.core c).stream = some r' ∧ r'.ended = true) ∧
    (plainCommand i 0x02 w s → ∀ (r : Stream) (len n : Nat), len = w.param 0 0 16 → n = w.param 2 0 16 → (s.core c).stream = some r →
      1 ≤ len → len ≤ 511 → 1 ≤ n → s.jobMode 2 1 = 0 ∨ s.jobMode 3 1 = 0 → r.reps.length < 4 → r.pc + len < r.first + r.len → (∀ x ∈ r.reps, r.pc + len ≤ x.last) →
      ∃ t, exec (.seqRepeat i) s = .next t ∧ t = { u with cores := t.cores } ∧ othersStand c s t ∧
        (t.core c).stream = some { r with
          pc := r.pc + 1, reps := { first := r.pc + 1, last := r.pc + len, left := n } :: r.reps }) ∧
    (plainCommand i 0x04 w s → w.param 0 0 8 = 0 → w.param 1 0 8 < 16 →
      let holds := 0 ≤ ((s.core c).obj (w.param 1 0 8) - BitVec.ofNat 32 (w.param 4 0 32)).toInt
      (holds → exec (.seqWait i) s = .next (u.onCore c fun k => k.complete w)) ∧
      (¬ holds → exec (.seqWait i) s = .next (s.onCore c fun k => { k with stream := k.stream.map fun r => { r with waiting := true } }))) ∧
    (plainCommand i 0x05 w s → w.param 0 6 2 ≤ 2 → ∀ r, (s.core c).stream = some r →
      ∃ t, exec (.seqBarrier i) s = .next t ∧ othersStand c s t ∧ t.current i = none ∧ t.sys = u.sys ∧
        let key := barrierKey (w.param 0 6 2) (barrierInst (w.param 0 6 2) c) (w.param 0 0 4)
        (∃ r', (t.core c).stream = some r' ∧ r'.barrier = some key ∧ r'.barrierTag = w.tag) ∧
        (flagAt s.comp.participants c = false → t.comp.barCounts = s.comp.barCounts) ∧
        (flagAt s.comp.participants c = true → t.barrierCount key (c / 16) = s.barrierCount key (c / 16) + 1 ∧
          (w.param 0 6 2 = 0 →
            (t.barrierFull 0 (c / 16) key = true ↔ s.barrierCount key (c / 16) + 1 = s.clusterParts (c / 16))) ∧
          (s.barrierCount key (c / 16) + 1 ≠ s.clusterParts (c / 16) → t.barrierCount key (64 + c / 256) = s.barrierCount key (64 + c / 256)) ∧
          (1 ≤ w.param 0 6 2 → s.barrierCount key (c / 16) + 1 = s.clusterParts (c / 16) →
            t.barrierCount key (64 + c / 256) = s.barrierCount key (64 + c / 256) + 1))) ∧
    (plainCommand i 0x06 w s → w.traced = false → s.jobMode 2 1 = 0 → s.sys.trace.ctrl.getLsbD 0 = true →
      s.sys.trace.clusters.getLsbD (c / 16) = true → s.sys.trace.count < tracePlaces → natAt s.sys.trace.coreLost c = 0 →
      ∃ t, exec (.seqMark i) s = .next t ∧ othersStand c s t ∧ t.sys.trace.count = s.sys.trace.count + 1 ∧
        t.sys.trace.head = (s.sys.trace.head + 1) % tracePlaces ∧
        t.sys.peekN (traceBase + 32 * s.sys.trace.head) 32 = natToBytes 32
          (traceRecord 2 c w.tag i.held i.cycle.toNat s.job.slot (w.param 0 0 64)).toNat) ∧
    (s.up = true → s.current i = some w → i.ecc = false → w.opcode = 0x03 →
      (romRoutines.contains (w.param 0 0 8) = false → s.patched (w.param 0 0 8) = false → ∀ run : PatchRun,
        ∃ t, exec (.seqCallPatch i run) s = .next t ∧ counted Cls.ROUTINE_ABSENT s t ∧ othersStand c s t ∧
          ∀ r, (s.core c).stream = some r → ∃ r', (t.core c).stream = some r' ∧ r'.stopped = true) ∧
      ∀ (a : BitVec 19) (b : Byte), s.patched (w.param 0 0 8) = true → w.levels = 0 → w.opValid 0 = false → w.opValid 1 = false → w.opValid 2 = false →
        (s.core c).callReady = true →
        ∃ t, exec (.seqCallPatch i { spad := [(a, [b])] }) s = .next t ∧ t = { u with sys := t.sys, cores := t.cores } ∧ othersStand c s t ∧
          (t.core c).call = none ∧ (t.core c).dones = (s.core c).dones ++ (if w.signalDone then [w.doneObj] else []) ∧
          t.sys.peek (spadByte c a.toNat) = b ∧ ∀ x, x ≠ spadByte c a.toNat → t.sys.peek x = u.sys.peek x)

/-- A stream that has issued SEQ.END ends when its core is idle; a barrier is released when its last arrival has been counted, and no
sooner; its counts then return to zero (R32, R211, R362, R363). -/
def streamAndBarrier : Prop :=
  ∀ s : State, s.up = true →
    (∀ (core : BitVec 10) (r : Stream), s.coreLive core.toNat = true → (s.core core.toNat).stream = some r →
      (r.ended = true → r.adapt = false → (s.core core.toNat).allIdle = true →
        ∃ t, exec (.streamComplete core) s = .next t ∧ t = { s with cores := t.cores } ∧ othersStand core.toNat s t ∧
          t.core core.toNat = { s.core core.toNat with stream := none }) ∧
      (r.ended = false → exec (.streamComplete core) s = .next s)) ∧
    ∀ (scope : BitVec 2) (inst : BitVec 6) (num : BitVec 4),
      let key := barrierKey scope.toNat inst.toNat num.toNat
      (s.barrierFull scope.toNat inst.toNat key = true →
        ∃ t, exec (.barrierRelease scope inst num) s = .next t ∧ t = { s with cores := t.cores, comp := t.comp } ∧
          (∀ c, t.core c = { s.core c with stream := (t.core c).stream } ∧
            (t.core c).stream = (s.core c).stream.map fun r => if r.barrier = some key then { r with barrier := none } else r) ∧
          (∀ node, node < 128 → t.barrierCount key node = 0 ∧ ∀ other, other ≠ key → t.barrierCount other node = s.barrierCount other node) ∧
          flagAt t.comp.barrierGen key = !flagAt s.comp.barrierGen key ∧ t.comp.lastEvent = s.sys.now) ∧
      (s.barrierFull scope.toNat inst.toNat key = false → exec (.barrierRelease scope inst num) s = .next s)

/-- Issue, streams and barriers of the cores.
The model's own choices in it are those of log entries 118, 119, 213, 259, 270. -/
def Obligations.Sequencing : Prop := issueRules ∧ sequencerRows ∧ streamAndBarrier

/-- SYN.SET, ADD and SIGNAL, a signal's wait behind an earlier one of its core to the same object, the arrival of signals and of SIGNAL_DONE
at objects, and commits and releases of stream rings (R212, R353,
R354, R361).
The model's own choices in it are those of log entry 213. -/
def Obligations.Synchronisation : Prop :=
  (∀ (s : State) (i : Issue) (w : Cmd),
    let c := i.core.toNat
    let u := s.issued i w
    let x := w.param 0 0 8
    let v := BitVec.ofNat 32 (w.param 4 0 32)
    let writes (row : Instr) (new : BitVec 32) : Prop :=
      ∃ t, exec row s = .next t ∧ t = { u with cores := t.cores, comp := t.comp } ∧ othersStand c s t ∧ (t.core c).obj x = new ∧
        (∀ y, y ≠ x → (t.core c).obj y = (s.core c).obj y) ∧ t.comp = { s.comp with lastEvent := s.sys.now, quietSince := none }
    (plainCommand i 0xA0 w s → x < 16 → writes (.synSet i) v) ∧
    (plainCommand i 0xA1 w s → x < 16 → writes (.synAdd i) ((s.core c).obj x + v)) ∧
    (plainCommand i 0xA0 w s → 16 ≤ x →
      ∃ t, exec (.synSet i) s = .next t ∧ counted Cls.ILLEGAL_CMD s t ∧ (t.core c).objs = (s.core c).objs ∧ othersStand c s t) ∧
    (plainCommand i 0xA2 w s → w.param 0 0 16 < 2 ^ 14 →
      let sig : Signal := { core := c, target := BitVec.ofNat 14 (w.param 0 0 16), value := v, tag := BitVec.ofNat 16 w.tag }
      (w.param 2 0 3 = 0 → (s.core c).signals = [] →
        ∃ t, exec (.synSignal i) s = .next t ∧ t = { u with cores := t.cores, comp := t.comp } ∧ othersStand c s t ∧
          (t.core c).signals = [] ∧ t.comp = { s.comp with signals := s.comp.signals ++ [sig] }) ∧
      (∀ y, w.param 2 0 3 = 0 → (s.core c).signals = [y] → y.target = sig.target → y.unready (s.core c) = true →
        ∃ t, exec (.synSignal i) s = .next t ∧ othersStand c s t ∧ (t.core c).signals = [y, sig] ∧ t.comp = s.comp) ∧
      ∀ q n, w.param 2 0 3 = q + 1 → q < 4 → lastSerial (s.core c) q = some n → (s.core c).signals = [] →
        ∃ t, exec (.synSignal i) s = .next t ∧ t.comp = s.comp ∧ (t.core c).signals = [{ sig with after := some (q, n) }]) ∧
    (let r := (s.core c).ring x
      let n := w.param 1 0 8
      x < 8 → 1 ≤ n → n ≤ 15 → r.enabled = true →
      (plainCommand i 0xA3 w s →
        (r.mcast = false → r.feeds = false → r.ready + n ≤ r.slots →
          ∃ t, exec (.synRingCommit i) s = .next t ∧ othersStand c s t ∧ t.sys = u.sys ∧
            (t.core c).ring x = { r with tail := r.tail + BitVec.ofNat 32 n } ∧ t.comp.lastEvent = s.sys.now) ∧
        (r.mcast = true ∨ r.feeds = true ∨ r.slots < r.ready + n →
          ∃ t, exec (.synRingCommit i) s = .next t ∧ counted Cls.RING_ERROR s t ∧ (t.core c).ring x = r)) ∧
      (plainCommand i 0xA4 w s → (∀ d q, q < 4 → moverQueue (s.core d) q = []) →
        (n ≤ r.ready → ∃ t, exec (.synRingRelease i) s = .next t ∧ othersStand c s t ∧ t.sys = u.sys ∧
          (t.core c).ring x = { r with head := r.head + BitVec.ofNat 32 n } ∧ t.comp.lastEvent = s.sys.now) ∧
        (r.ready < n → ∃ t, exec (.synRingRelease i) s = .next t ∧ counted Cls.RING_ERROR s t ∧ (t.core c).ring x = r)))) ∧
  ∀ (s : State) (core : BitVec 10), s.up = true →
    (∀ (x : Signal) (rest : List Signal), s.comp.signals = x :: rest → x.core = core.toNat →
      let d := x.target.toNat / 16
      (s.sys.coreFenced d = false →
        ∃ t, exec (.signalArrival core) s = .next t ∧ t = { s with cores := t.cores, comp := t.comp } ∧ othersStand d s t ∧
          t.comp.signals = rest ∧ t.comp.lastEvent = s.sys.now ∧
          (t.core d).obj (x.target.toNat % 16) = (s.core d).obj (x.target.toNat % 16) + x.value) ∧
      (s.sys.coreFenced d = true → exec (.signalArrival core) s = .next { s with
        comp := { s.comp with signals := rest },
        sys := s.sys.fault Cls.FENCED_ACCESS UnitCode.sequencer core.toNat x.tag.toNat x.target.toNat })) ∧
    ∀ (o : Nat) (rest : List Nat), (s.core core.toNat).dones = o :: rest →
      ∃ t, exec (.signalDone core) s = .next t ∧ t = { s with cores := t.cores, comp := t.comp } ∧ othersStand core.toNat s t ∧
        (t.core core.toNat).dones = rest ∧ (t.core core.toNat).obj o = (s.core core.toNat).obj o + 1 ∧ t.comp.lastEvent = s.sys.now

/-! ### Cores: matrix array, vector engine, routines (ch. 7, 8, 9) -/

/-- The matrix array: LOAD fills the shadow block column by column, a swap makes it active, STREAM and STREAM_T put the exact sums of
products into the lanes of a row, CLEAR zeroes rows, a stream that can never meet its block starves, a drain narrows lanes into the
scratchpad, and one that meets a parity error fences the core (R226, R231 to R234, R237, R238, R243, R245 to R247, R257).
The model's own choices in it are those of log entries 104, 107, 108. -/
def Obligations.MatrixArrayCommands : Prop :=
  (∀ (s : State) (i : Issue) (w : Cmd) (p : PortCmd),
    let c := i.core.toNat
    let u := s.issued i w
    let a := (s.core c).array
    a.token = false → a.streamer = [] → a.loader = [] → a.step = 0 → (s.core c).vec = [] →
    (atCommand i 0x20 w p s → loadLegal (s.width31 c) w = true → a.shadow.state = 0 → w.steps = w.param 1 0 8 →
      ∃ t, exec (.arrLoad i) s = .next t ∧ othersStand c s t ∧ (t.core c).array.active = a.active ∧ (t.core c).array.loader = [] ∧
        (t.core c).array.acc = a.acc ∧ (t.core c).array.shadow.state = 2 ∧ (t.core c).array.shadow.fmt = w.opFmt 1 ∧
        (t.core c).array.shadow.k = w.param 0 0 8 ∧ (t.core c).array.shadow.n = w.param 1 0 8 ∧
        (t.core c).array.shadow.cols = (List.range (w.param 1 0 8)).map fun j =>
          (List.range (w.param 0 0 8)).map fun k => u.sys.elem c (w.opFmt 1) (p.addr 1 j) k) ∧
    (∀ (transposed : Bool), atCommand i (if transposed then 0x22 else 0x21) w p s → streamLegal w = true → a.drains = [] →
      a.active.state = 2 → a.active.fmt = 3 → w.opFmt 1 = 3 → w.param 0 0 8 % 16 = 0 → w.levels = 0 → i.parity = false →
      let xs := (List.range (if transposed then a.active.n else a.active.k)).map fun k => u.sys.elem c 3 (p.addr 1 0) k
      let line (l : Nat) : List (Nat × Bool) :=
        if transposed then a.active.cols.map fun x => x.getD l (0, false) else a.active.cols.getD l []
      ∃ t, exec (if transposed then .arrStreamT i else .arrStream i) s = .next t ∧ othersStand c s t ∧
        (t.core c).array.active = a.active ∧ (t.core c).array.streamer = [] ∧
        (∀ l, l < (if transposed then a.active.k else a.active.n) → l < 32 →
          ((t.core c).array.lane (w.param 2 0 16) l).1 =
            ofSigned 40 (((line l).zip xs).map fun e => toSigned 16 e.1.1 * toSigned 16 e.2.1).sum) ∧
        ∀ r, r ≠ w.param 2 0 16 → ∀ l, (t.core c).array.lane r l = a.lane r l) ∧
    (plainCommand i 0x23 w s → a.drains = [] →
      let cleared (r : Nat) : Prop := ∃ j, j < w.param 2 0 16 ∧ j < 512 ∧ r = (w.param 0 0 16 + j) % 512
      ∃ t, exec (.arrClear i) s = .next t ∧ othersStand c s t ∧ t.sys = u.sys ∧
        (∀ r, cleared r → (∀ l, (t.core c).array.lane r l = (0, false)) ∧ mapGet sumDefault r (t.core c).array.rowSum = (0, false)) ∧
        ∀ r, ¬ cleared r → ∀ l, (t.core c).array.lane r l = a.lane r l)) ∧
  ∀ (s : State) (core : BitVec 10), s.up = true → s.coreLive core.toNat = true →
    let c := core.toNat
    let a := (s.core c).array
    (a.token = true → a.shadow.state = 2 → a.streamer = [] → a.loader = [] → ∀ parity : Bool,
      ∃ t, exec (.arraySwap { core := core, parity := parity }) s = .next t ∧ t = { s with cores := t.cores } ∧ othersStand c s t ∧
        (t.core c).array = { a with active := a.shadow, shadow := {}, token := false }) ∧
    (∀ (p : PortCmd) (rest : List PortCmd), a.streamer = p :: rest → p.word.opcode = 0x21 → a.active.state ≠ 2 → a.shadow.state ≠ 2 →
      a.loader = [] →
      exec (.arrStarve core false) s = .next { s with sys := s.sys.fault Cls.ARR_STARVE UnitCode.array c p.word.tag 0 }) ∧
    (∀ (d : Drain) (rest : List Drain), a.drains = d :: rest →
      ∃ t, exec (.drainStart { core := core, parity := true }) s = .next t ∧ othersStand c s t ∧ counted Cls.ARRAY_PARITY s t ∧ t.sys.coreFenced c = true ∧
        (t.core c).array = {}) ∧
    ∀ d : Drain, a.drains = [d] → a.streamer = [] → a.loader = [] → a.token = false → d.kind = 0 → d.len ≤ 32 → d.cmd.epiValid = false →
      d.cmd.word.opFmt 0 = 4 → d.cmd.word.levels = 0 →
      ∃ t, exec (.drainStart { core := core }) s = .next t ∧ othersStand c s t ∧ (t.core c).array = { a with drains := [] } ∧
        ∀ l, l < d.len → (t.sys.elem c 4 (d.cmd.addr 0 0) l).1 =
          ofSigned 32 (satSigned 32 (toSigned 40 (a.lane (d.cmd.word.param 2 0 16 % 512) l).1))

/-- A command enters the vector engine's port and waits there: nothing but its issue and the port changes. -/
def entersVec (c : Nat) (row : Instr) (p : PortCmd) (s u t : State) : Prop :=
  exec row s = .next t ∧ t = { u with cores := t.cores } ∧ othersStand c s t ∧ t.core c = { u.core c with vec := [{ cmd := p }] }

/-- The vector engine's port takes two commands and holds the third at issue; with no command of the block waiting, its engine does the
next part of the first. A chain of one saturating INT32 addition writes the sums of its inputs and no other byte, and reads what an earlier
cc of it has written; a side-list entry is added to its element, a poisoned one is reported and skipped; a descriptor writes its pattern,
copies or compares, and leaves its status record (R196, R197, R199, R265, R270, R272, R283, R284, R301 to R303).
The model's own choices in it are those of log entries 109, 224, 225, 226. -/
def Obligations.VectorCommands : Prop :=
  (∀ (s : State) (c : Nat), s.up = true → s.pending = [] → s.coreLive c = true → s.cores.map Prod.fst = [c] → step s = .next (vecStep c s)) ∧
  ∀ (s : State) (i : Issue) (w : Cmd) (p : PortCmd),
    let c := i.core.toNat
    let u := s.issued i w
    (atCommand i 0x40 w p s → vecChainLegal w = true → (s.core c).vec.length = 2 → exec (.vecChain i) s = .next s) ∧
    (atCommand i 0x40 w p s → vecChainLegal w = true → w.levels = 0 → w.opFmt 0 = 4 → w.opFmt 1 = 4 → w.opFmt 2 = 4 →
      w.opValid 2 = true → w.chain.reduce = false → w.chain.strict = false →
      (∃ st, w.chain.stages = [st] ∧ st.code = 0x20 ∧ st.a = 0 ∧ st.b = 1) → (s.core c).vec = [] →
      let n := w.chain.elems
      let apart (k : Nat) : Prop := ∀ x y, x < 4 * n → y < 4 * n → spadByte c (p.addr k 0 + x) ≠ spadByte c (p.addr 0 0 + y)
      let sum (x y : Nat) : Nat := ofSigned 32 (satSigned 32 (toSigned 32 x + toSigned 32 y))
      ∃ t r, entersVec c (.vecChain i) p s u t ∧ r = vecStep c t ∧ othersStand c s r ∧ r.job = s.job ∧ (r.core c).vec = [] ∧
        (n ≤ 64 ∨ ((p.addr 1 0 = p.addr 0 0 ∨ apart 1) ∧ (p.addr 2 0 = p.addr 0 0 ∨ apart 2)) → ∀ k, k < n →
          (r.sys.elem c 4 (p.addr 0 0) k).1 = sum (u.sys.elem c 4 (p.addr 1 0) k).1 (u.sys.elem c 4 (p.addr 2 0) k).1) ∧
        (p.addr 0 0 = p.addr 1 0 + 256 → apart 2 → ∀ k, 64 ≤ k → k < n →
          (r.sys.elem c 4 (p.addr 0 0) k).1 = sum (r.sys.elem c 4 (p.addr 0 0) (k - 64)).1 (u.sys.elem c 4 (p.addr 2 0) k).1) ∧
        ∀ x, (∀ j, j < 4 * n → x ≠ spadByte c (p.addr 0 0 + j)) → r.sys.peek x = u.sys.peek x) ∧
    (atCommand i 0x42 w p s → w.levels = 0 → w.opValid 0 = true → w.opValid 1 = true → w.opValid 2 = false → w.opFmt 0 = 9 →
      w.opFmt 1 = 2 → w.opMode 0 < 3 → w.opMode 1 < 3 → p.base1 % 8 = 0 → w.param 0 0 32 = 1 → (s.core c).vec = [] →
      let e := p.base1 % 524288
      let at_ := (p.base0 + bytesToNat (u.sys.spadRead c e 4) * 4) % 524288
      ∃ t r, entersVec c (.vecSideadd i) p s u t ∧ r = vecStep c t ∧ othersStand c s r ∧ (r.core c).vec = [] ∧
        (u.sys.spadPoison c e 8 = true →
          natAt r.sys.counters Cls.SIDE_POISON = min counterMax (natAt u.sys.counters Cls.SIDE_POISON + 1) ∧
          r.comp.sideRecord.isSome = true ∧ r.sys.jobFault = u.sys.jobFault) ∧
        (u.sys.spadPoison c e 8 = false → r.comp = s.comp ∧
          r.sys.spadRead c at_ 4 = natToBytes 4 (writeElem 9 s.ieeeOpt (addExact (readElem 9 (u.sys.elem c 9 at_ 0).1)
            (fp16.decode (bytesToNat (u.sys.spadRead c (e + 4) 2))))) ∧
          ∀ x, (∀ j, j < 4 → x ≠ spadByte c (at_ + j)) → r.sys.peek x = u.sys.peek x)) ∧
    ∀ d : Desc, plainCommand i 0x41 w s → d = bytesToNat (u.sys.spadRead c (w.param 0 0 19) 96) →
      (s.sys.peek (spadByte c (w.param 0 0 19))).toNat = d.op → (s.core c).inJob = false → (s.core c).vec = [] → w.param 0 0 19 % 32 = 0 →
      u.sys.spadPoison c (w.param 0 0 19) 96 = false → d.ok u.sys c = true → d.testBit 24 = false →
      let sa := bitsOf d (8 * 0x48) 19
      let row := if d.op = 0 then Instr.descFill i else if d.op = 1 then .descCopy i else if d.op = 2 then .descChain i
        else if d.op = 3 then .descCompare i else if d.op = 4 then .descPatternWrite i else .descPatternCheck i
      let clear (n k : Nat) : Prop := d.addr false 0 / 8 * 8 + n ≤ sa ∧ sa + k ≤ 524288
      let bytes (a : Nat) : List Byte := u.sys.spadRead c a (elemBytes d.fmt)
      ∃ t r, entersVec c row { word := w } s u t ∧ r = vecStep c t ∧ othersStand c s r ∧ r.job = s.job ∧ (r.core c).vec = [] ∧
        (d.op = 0 ∨ d.op = 1 ∨ d.op = 2 ∨ d.op = 4 →
          r.sys.spadRead c sa 16 = natToBytes 4 1 ++ natToBytes 4 0 ++ natToBytes 8 0) ∧
        (d.op = 0 → d.total = 1 → d.fmt ≠ 0 → clear 16 16 → d.addr false 0 + 4 ≤ 524288 →
          (r.sys.elem c d.fmt (d.addr false 0) 0).1 = bitsOf d (8 * 0x40) (fmtBits d.fmt)) ∧
        (d.op = 1 → d.total = 1 → clear 16 16 → d.addr false 0 + 4 ≤ 524288 →
          r.sys.spadRead c (d.addr false 0) (elemBytes d.fmt) = bytes (d.addr true 0)) ∧
        (d.op = 4 → d.total = 1 → clear 8 16 →
          r.sys.spadRead c (d.addr false 0 / 8 * 8) 8 = natToBytes 8 (d.pattern (d.addr false 0 / 8 * 8))) ∧
        (d.op = 3 → d.stop = false →
          let bad := (List.range d.total).filter fun n =>
            let poison (a : Nat) : Bool := u.sys.spadPoison c a (elemBytes d.fmt)
            bytes (d.addr true n) != bytes (d.addr false n) || poison (d.addr true n) || poison (d.addr false n)
          r.sys.spadRead c (sa + 4) 4 = natToBytes 4 bad.length ∧ r.sys.spadRead c (sa + 8) 8 = natToBytes 8 (bad.headD 0)) ∧
        (d.op = 5 → d.stop = false →
          let bad := (List.range d.total).filter fun n =>
            let g := d.addr false n / 8 * 8
            bytesToNat (u.sys.spadRead c g 8) != d.pattern g || u.sys.spadPoison c g 8
          r.sys.spadRead c (sa + 4) 4 = natToBytes 4 bad.length ∧ r.sys.spadRead c (sa + 8) 8 = natToBytes 8 (bad.headD 0))

/-! ### Cores: the mover (ch. 11) -/

/-- A mover queue holds its commands in order, at most 16 of them; a command that finds no place is held at issue (R196, R197, R345). A
first RING_FEED lets feeds fill its ring (R354). -/
def moverQueues : Prop :=
  ∀ (s : State) (i : Issue) (w : Cmd) (p : PortCmd),
    let c := i.core.toNat
    let k := s.core c
    let u := s.issued i w
    let takes (row : Instr) (op : Nat) (legal : Bool) : Prop := atCommand i op w p s → legal = true →
      ((moverQueue k w.queue).length < 16 →
        ∃ t, exec row s = .next t ∧ t = { vecRun c u with cores := t.cores } ∧ othersStand c s t ∧
          moverQueue (t.core c) w.queue = moverQueue k w.queue ++ [{ cmd := p, serial := k.serial }] ∧
          (t.core c).serial = k.serial + 1 ∧ (∀ q, q ≠ w.queue → moverQueue (t.core c) q = moverQueue k q) ∧
          (t.core c).packets = k.packets ∧
          (op = 0x63 → (t.core c).ring w.feedRing =
            if (k.ring w.feedRing).feeds then k.ring w.feedRing
            else { k.ring w.feedRing with feeds := true, fill := (k.ring w.feedRing).tail }) ∧
          ∀ r, op ≠ 0x63 ∨ r ≠ w.feedRing → (t.core c).ring r = k.ring r) ∧
      (16 ≤ (moverQueue k w.queue).length → exec row s = .next s)
    takes (.movGet i) 0x60 (movLegal 1 0 w) ∧ takes (.movPut i) 0x61 (movLegal 0 1 w) ∧ takes (.movMcast i) 0x62 (movLegal 0 1 w) ∧
      takes (.movRingFeed i) 0x63 (feedLegal k w)

/-- Packets and fills: the head command of a queue issues packets cut at 64-byte boundaries, at most 128 in flight; the bytes of a write
land at its destination, those of a read in the scratchpad, zeros where the unit it reads is fenced or absent; a read of bytes that a write
still has to reach waits; the command completes with its last acknowledgement, and a routine's call with its last command; a fill opens
below LEAD and commits after its packets (R23 to R25, R28, R214, R215, R345 to R349, R355, R358). -/
def moverPackets : Prop :=
  ∀ (s : State) (core : BitVec 10), s.up = true → s.coreLive core.toNat = true →
    let c := core.toNat
    let k := s.core c
    (∀ (queue : BitVec 4) (m : MoverCmd) (rest : List MoverCmd),
      let q := queue.toNat
      let w := m.cmd.word
      let g := w.globalAt m.step + m.off
      let n := min (64 - g % 64) (w.burst - m.off)
      let next : MoverCmd := if w.burst ≤ m.off + n then { m with step := m.step + 1, off := 0 } else { m with off := m.off + n }
      let issues (base : Nat) (read : Bool) (a : Nat) (t : State) : Prop :=
        othersStand c s t ∧ moverQueue (t.core c) q = next :: rest ∧
          (t.core c).packets = k.packets ++
            [{ queue := q, serial := m.serial, read := read, global := g, local_ := base + m.off, len := n, block := m.slot }] ∧
          bitsOf g 46 6 = s.sys.node ∧ a = bitsOf g 0 46
      moverQueue k q = m :: rest → m.step < w.steps → w.burst ≤ 4096 → m.off < w.burst → k.packets.length < 128 →
      (w.opcode = 0x60 →
        (∀ a, s.sys.target g = .here a → ∃ t, exec (.moverPacketIssue core queue false) s = .next t ∧
          t = { s with cores := t.cores } ∧ issues (m.cmd.addr 0 m.step) true a t) ∧
        (∀ cls, s.sys.target g = .refused cls → ∃ t, exec (.moverPacketIssue core queue false) s = .next t ∧
          (q ≠ 3 ∨ k.call = none → t = { s with cores := t.cores, sys := s.sys.fault cls UnitCode.mover c w.tag g }) ∧
          (∀ r, q = 3 → k.call = some r → ∃ (n : Nat) (y : Sys), y = { s.sys with seed := t.sys.seed } ∧
            t = { s with cores := t.cores, sys := y.fault cls UnitCode.mover c w.tag (g + r.param 0 0 8 * 2 ^ 64 + n * 2 ^ 72) }) ∧
          othersStand c s t ∧
          moverQueue (t.core c) q = next :: rest ∧
          ∃ x, (t.core c).packets = k.packets ++ [x] ∧ x.data = some (List.replicate n 0) ∧ x.poison = true ∧ x.len = n)) ∧
      (w.opcode = 0x61 → ∀ a d, s.sys.target g = .here a → regionOf a = .scratchpad d → s.sys.ctxMoving a n = false →
        ∃ t, exec (.moverPacketIssue core queue false) s = .next t ∧ issues (m.cmd.addr 1 m.step) false a t ∧
          (∀ j, j < n → t.sys.peek (a + j) = s.sys.peek (spadByte c (m.cmd.addr 1 m.step + m.off + j))) ∧
          (∀ x, (∀ j, j < n → x ≠ a + j) → t.sys.peek x = s.sys.peek x) ∧ t.sys.counters = s.sys.counters) ∧
      (w.opcode = 0x62 → m.filling = false → w.levels = 0 → ∀ e, s.groupEntry w.group = some e → s.imgNat (e + 1) 1 = 0 →
        ∃ t, exec (.moverPacketIssue core queue false) s = .next t ∧ othersStand c s t ∧
          (∃ m', moverQueue (t.core c) q = m' :: rest ∧ m'.step = m.step + 1 ∧ m'.filling = true) ∧
          (∀ d, d ∈ s.groupMembers e c → s.sys.coreFenced d = false → ∀ j, j < w.burst →
            t.sys.peek (spadByte d (m.cmd.addr 1 m.step + j)) = s.sys.peek (spadByte c (m.cmd.addr 1 m.step + j))) ∧
          ∀ d, d < 1024 → d ∉ s.groupMembers e c ∨ s.sys.coreFenced d = true → ∀ a,
            t.sys.peek (spadByte d a) = s.sys.peek (spadByte d a))) ∧
    (∀ (queue : BitVec 4) (p : Packet) (rest : List Packet), k.packets = p :: rest → p.queue = queue.toNat → p.remote = none →
      p.len ≤ 64 →
      (p.read = true → p.data = none → s.writeWaits (p.global % 2 ^ 46) p.len = true → ∀ host,
        exec (.moverReadResponse core queue [] host) s = .next s) ∧
      (p.read = true → p.data = none → s.writeWaits (p.global % 2 ^ 46) p.len = false → s.refreshing (p.global % 2 ^ 46) = false →
        ∀ cls host, s.sys.localFault (p.global % 2 ^ 46) = some cls →
        ∃ t, exec (.moverReadResponse core queue [] host) s = .next t ∧ othersStand c s t ∧ (t.core c).packets = rest ∧ counted cls s t ∧
          ∀ j, j < p.len → t.sys.peek (spadByte c (p.local_ + j)) = 0) ∧
      (p.read = true → p.data = none → s.writeWaits (p.global % 2 ^ 46) p.len = false → s.sys.localFault (p.global % 2 ^ 46) = none →
        ∀ d host, regionOf (p.global % 2 ^ 46) = .scratchpad d →
        ∃ t, exec (.moverReadResponse core queue [] host) s = .next t ∧ othersStand c s t ∧ (t.core c).packets = rest ∧
          (∀ j, j < p.len → t.sys.peek (spadByte c (p.local_ + j)) = s.sys.peek (p.global % 2 ^ 46 + j)) ∧
          (∀ x, (∀ j, j < p.len → x ≠ spadByte c (p.local_ + j)) → t.sys.peek x = s.sys.peek x) ∧ t.sys.counters = s.sys.counters) ∧
      (p.read = true → p.data = none → s.writeWaits (p.global % 2 ^ 46) p.len = false → ∀ host, regionOf (p.global % 2 ^ 46) = .host →
        ∃ t, exec (.moverReadResponse core queue [] host) s = .next t ∧ (t.core c).packets = rest ∧
          ∀ j, j < p.len → t.sys.peek (spadByte c (p.local_ + j)) = host.getD j 0) ∧
      (p.read = false → ∀ m more, moverQueue k p.queue = m :: more → m.cmd.word.opcode = 0x61 →
        ∃ t, exec (.moverWriteAck core queue) s = .next t ∧ t = { s with cores := t.cores, comp := t.comp } ∧ othersStand c s t ∧
          (t.core c).packets = rest ∧
          ((∀ x ∈ rest, ¬(x.queue = p.queue ∧ x.serial = m.serial)) → (∀ r, (k.ring r).fills = []) → m.cmd.word.steps ≤ m.step →
            m.filling = false → moverQueue (t.core c) p.queue = more ∧
              (p.queue ≠ 3 ∨ k.call = none ∨ more ≠ [] → (t.core c).dones = (k.complete m.cmd.word).dones ∧ (t.core c).call = k.call) ∧
              ∀ r, p.queue = 3 → k.call = some r → more = [] →
                (t.core c).dones = ((k.complete m.cmd.word).complete r).dones ∧ (t.core c).call = none) ∧
          (m.step < m.cmd.word.steps → moverQueue (t.core c) p.queue = m :: more ∧ (t.core c).dones = k.dones))) ∧
    ∀ ring : BitVec 3,
      let x := k.ring ring.toNat
      (x.enabled = true → x.pulls = none →
        (x.lead ≤ (x.fillCount - x.head).toNat → exec (.ringFillStart core ring) s = .next s) ∧
        ∀ m rest, moverQueue k 0 = m :: rest → m.cmd.word.opcode = 0x63 → m.cmd.word.feedRing = ring.toNat → m.filling = false →
          m.step < m.cmd.word.steps → (x.fillCount - x.head).toNat < x.lead →
          ∃ t, exec (.ringFillStart core ring) s = .next t ∧ t = { s with cores := t.cores } ∧ othersStand c s t ∧
            (t.core c).ring ring.toNat = { x with fill := x.fill + 1, fills := x.fills ++ [(0, m.serial, x.fill.toNat, false)] } ∧
            moverQueue (t.core c) 0 = { m with filling := true, slot := x.fill.toNat } :: rest) ∧
      ∀ q n b closed rest, x.fills = (q, n, b, closed) :: rest →
        (closed = true → (∀ y ∈ k.packets, ¬(y.queue = q ∧ y.serial = n ∧ y.block = b)) →
          ∃ t, exec (.ringFillCommit core ring) s = .next t ∧ othersStand c s t ∧ t.sys = s.sys ∧
            (t.core c).ring ring.toNat = { x with tail := x.tail + 1, fills := rest } ∧ t.comp.lastEvent = s.sys.now) ∧
        (closed = false → exec (.ringFillCommit core ring) s = .next s)

/-- The mover of a core: its queues, its packets and its fills.
The model's own choices in it are those of log entries 112, 113, 114, 115, 266. -/
def Obligations.MoverCommands : Prop := moverQueues ∧ moverPackets

/-! ### Cores: ROM routines (ch. 6) -/

/-- A call of routine `code`, which the firmware does not redirect, stands next on a core, passes the checks of its word, and the units it waits for are idle. -/
def calls (i : Issue) (code : Nat) (w : Cmd) (p : PortCmd) (s : State) : Prop :=
  s.up = true ∧ s.current i = some w ∧ i.ecc = false ∧ w.opcode = 0x03 ∧ w.param 0 0 8 = code ∧
    s.patched code = false ∧ commonOk w true 2 2 2 = true ∧
    (s.core i.core.toNat).resolve w = some p ∧ aligned p = true ∧ (s.core i.core.toNat).callReady = true

/-- The operands a routine wants: true present, false absent. -/
def wants (w : Cmd) (a b c : Bool) : Prop := w.opValid 0 = a ∧ w.opValid 1 = b ∧ w.opValid 2 = c

/-- Each routine row that returns at once, with its code and its arguments in range (Table 06-8). -/
def routineRow (i : Issue) (w : Cmd) (row : Instr) (code : Nat) : Prop :=
  (row = .rtNop i ∧ code = 0x00 ∧ wants w false false false) ∨
  (row = .rtFill i ∧ code = 0x01 ∧ wants w true false false) ∨
  (row = .rtCopy i ∧ code = 0x02 ∧ wants w true true false) ∨
  (row = .rtSoftmaxRows i ∧ code = 0x08 ∧ wants w true true true ∧ (w.opFmt 1 = 8 ∨ w.opFmt 1 = 9) ∧ w.opFmt 2 = 2 ∧ 1 ≤ w.arg 2 ∧
    w.arg 2 ≤ 4096) ∨
  (row = .rtDeferFix i ∧ code = 0x09 ∧ wants w true true false ∧ w.opFmt 1 = 9 ∧ 1 ≤ w.arg 2) ∨
  (row = .rtQscale i ∧ code = 0x10 ∧ wants w true true false ∧ w.arg 3 ∈ [0, 1, 2, 5, 6] ∧ w.opFmt 1 ≠ 10 ∧ w.arg 2 ≤ 2 ∧
    (w.arg 2 = 1 → 1 ≤ w.arg 4)) ∨
  (row = .rtRescale i ∧ code = 0x11 ∧ wants w true true false) ∨
  (row = .rtCrc24 i ∧ code = 0x20 ∧ wants w false true false) ∨
  (row = .rtCrc32Check i ∧ code = 0x21 ∧ wants w false true false ∧ 4 ≤ w.arg 1) ∨
  (row = .rtHcrc i ∧ code = 0x22 ∧ wants w false true false) ∨
  (row = .rtScramble i ∧ code = 0x23 ∧ wants w true true false) ∨
  (row = .rtLdpcEnc i ∧ code = 0x24 ∧ wants w true true false ∧ w.arg 1 ≤ 2 ∧ w.arg 2 ∈ [16, 32, 64, 128] ∧
    w.arg 3 ≤ 8 * (w.arg 1 + 1) * w.arg 2) ∨
  (row = .rtGfskMod i ∧ code = 0x25 ∧ wants w true true true ∧ w.opFmt 0 = 10 ∧ w.arg 1 < 12) ∨
  (row = .rtLabelBits i ∧ code = 0x26 ∧ wants w true true false ∧ w.arg 1 < 16 ∧ 1 ≤ w.arg 2 ∧ w.arg 2 ≤ 256 ∧ 1 ≤ w.arg 4) ∨
  (row = .rtHeadQuant i ∧ code = 0x38 ∧ wants w true true false ∧ w.opFmt 1 = 9 ∧ w.opFmt 0 = 1) ∨
  (row = .rtBistSpad i ∧ code = 0x48 ∧ wants w false false false) ∨
  (row = .rtBistArray i ∧ code = 0x49 ∧ wants w false false false) ∨
  (row = .rtCheckerTest i false ∧ code = 0x4A ∧ wants w false false false)

/-- Rows that a call of any routine may stand behind, whatever its arguments. -/
def routineCode (i : Issue) (row : Instr) (code : Nat) : Prop := (row = .rtNop i ∧ code = 0x00) ∨ (row = .rtCopy i ∧ code = 0x02) ∨
  (row = .rtLdpcEnc i ∧ code = 0x24) ∨ (row = .rtGfskMod i ∧ code = 0x25) ∨ (row = .rtCkptSave i ∧ code = 0x40) ∨
  (row = .rtCkptRestore i ∧ code = 0x41)

/-- Every routine completes, writes nothing but its own core's scratchpad (RT_BIST_ARRAY the array) and what it reports; a service routine
in the job state raises MODE, operands that do not fit raise ILLEGAL_CMD, a call waits for its units, and one that the firmware redirects
is no call of the ROM's (R213 to R217). -/
def routineCalls : Prop :=
  (∀ (s : State) (i : Issue) (w : Cmd) (p : PortCmd) (row : Instr) (code : Nat), routineRow i w row code →
    let c := i.core.toNat
    let u := s.issued i w
    (calls i code w p s → (s.core c).inJob = false ∨ code < 0x40 →
      ∃ t, exec row s = .next t ∧ t = { u with sys := t.sys, cores := t.cores } ∧ othersStand c s t ∧
        (t.core c).dones = (s.core c).dones ++ (if w.signalDone then [w.doneObj] else []) ∧ (t.core c).call = none ∧
        (t.core c).su = (s.core c).su ∧ (t.core c).objs = (s.core c).objs ∧ (t.core c).rings = (s.core c).rings ∧
        (code ≠ 0x49 → (t.core c).array = (s.core c).array) ∧
        ∀ x, x < hostBase → x < spadBase c ∨ spadBase c + 524288 ≤ x → t.sys.peek x = u.sys.peek x) ∧
    (calls i code w p s → (s.core c).inJob = true → 0x40 ≤ code →
      exec row s = .next (s.cmdFault Cls.MODE UnitCode.sequencer c w.tag code)) ∧
    (s.up = true → s.current i = some w → i.ecc = false → w.opcode = 0x03 → w.param 0 0 8 = code → commonOk w true 2 2 2 = true →
      (s.core c).resolve w = some p → aligned p = true → (s.core c).inJob = false → (s.core c).callReady = false →
      exec row s = .next s)) ∧
  ∀ (s : State) (i : Issue) (w : Cmd) (p : PortCmd) (row : Instr) (code : Nat), routineCode i row code →
    let c := i.core.toNat
    (s.up = true → s.current i = some w → w.opcode = 0x03 → w.param 0 0 8 = code → s.patched code = true → exec row s = .next s) ∧
    (calls i code w p s → (s.core c).inJob = false → moverQueue (s.core c) 3 = [] →
      (code = 0x00 ∧ w.opValid 0 = true) ∨ (code = 0x02 ∧ w.opValid 1 = false) ∨ (code = 0x24 ∧ 2 < w.arg 1) ∨
        (code = 0x25 ∧ 12 ≤ w.arg 1) ∨ (0x40 ≤ code ∧ w.opValid 0 = true) →
      exec row s = .next (s.cmdFault Cls.ILLEGAL_CMD UnitCode.sequencer c w.tag code))

/-- What the routines compute (Table 06-8; R53, R56, R59, R64, R67, R279, R280, R304, R305, R309, R310). -/
def routineResults : Prop :=
  ∀ (s : State) (i : Issue) (w : Cmd) (p : PortCmd) (row : Instr) (code : Nat), routineRow i w row code → calls i code w p s →
    (s.core i.core.toNat).inJob = false →
    let c := i.core.toNat
    let u := s.issued i w
    let status (t : State) (v : Nat) : Prop := t.sys.spadRead c (w.arg 0) 4 = natToBytes 4 v
    let bit (y : Sys) (a j : Nat) : Bool := (y.peek (spadByte c (a + j / 8))).getLsbD (7 - j % 8)
    ∃ t, exec row s = .next t ∧
      (code = 0x01 → w.arg 1 ≤ 524288 → ∀ j, j < w.arg 1 →
        t.sys.peek (spadByte c (p.base0 + j)) = BitVec.ofNat 8 (w.arg 2 / 2 ^ (8 * (j % 4)))) ∧
      (code = 0x02 → w.arg 1 ≤ 524288 → ∀ j, j < w.arg 1 →
        t.sys.peek (spadByte c (p.base0 + j)) = u.sys.peek (spadByte c (p.base1 + j))) ∧
      (code = 0x08 → w.arg 1 = 1 → (∀ j, j < w.arg 2 → (u.sys.elem c 2 p.base2 j).1 = 0) → status t (1 + 65536) ∧
        ∀ j, w.opFmt 0 ≠ 0 → j < w.arg 2 * elemBytes (w.opFmt 0) → (∀ k, k < 4 → spadByte c (p.base0 + j) ≠ spadByte c (w.arg 0 + k)) →
          t.sys.peek (spadByte c (p.base0 + j)) = 0) ∧
      (code = 0x09 → w.arg 1 = 1 → w.arg 2 ≤ 64 → (ofFp32 (u.sys.elem c 9 p.base1 0).1).isNan = false →
        ofFp32 (u.sys.elem c 9 p.base1 1).1 = Machine.Num.zero → status t (1 + 65536)) ∧
      (code = 0x10 → w.arg 2 = 0 → 1 ≤ w.arg 1 → (∀ j, j < w.arg 1 → readElem (w.opFmt 1) (u.sys.elem c (w.opFmt 1) p.base1 j).1 = Machine.Num.zero) →
        t.sys.spadRead c p.base0 4 = natToBytes 4 0x3F800000 ∧
        natAt t.sys.counters Cls.DEGENERATE_RANGE = min counterMax (natAt u.sys.counters Cls.DEGENERATE_RANGE + 1)) ∧
      (code = 0x11 → w.arg 1 = 1 →
        let sat := bytesToNat (u.sys.spadRead c p.base1 4)
        let unf := bytesToNat (u.sys.spadRead c (p.base1 + 4) 4)
        let count := bytesToNat (u.sys.spadRead c (p.base1 + 8) 4)
        let thresh := bytesToNat (u.sys.spadRead c (p.base0 + 6) 2)
        let fmt := (u.sys.peek (spadByte c (p.base0 + 4))).toNat
        ((sat + unf) * 65536 ≤ thresh * count ∨ count = 0 ∨ fmt = 2 → t.sys.mem = u.sys.mem) ∧
        ∀ v, thresh * count < (sat + unf) * 65536 → count ≠ 0 → fmt ≠ 2 →
          newScale fmt (bytesToNat (u.sys.spadRead c p.base0 4)) (bytesToNat (u.sys.spadRead c (p.base1 + 12) 4)) = some v →
          t.sys.spadRead c p.base0 4 = natToBytes 4 v) ∧
      (code = 0x20 → status t (crc24From (w.arg 2 % 2 ^ 24) (bytesBits (u.sys.spadRead c p.base1 (w.arg 1))))) ∧
      (code = 0x21 → status t (frameCrc32 (w.arg 2 % 2 ^ 20) (u.sys.spadRead c p.base1 (w.arg 1 - 4)) ^^^
        bytesToNat (u.sys.spadRead c (p.base1 + (w.arg 1 - 4)) 4))) ∧
      (code = 0x22 → status t (hcrc (bytesBits (u.sys.spadRead c p.base1 6)))) ∧
      (code = 0x23 → w.arg 2 ≤ 4194304 → ∀ j, j < w.arg 2 →
        bit t.sys p.base0 j = (bit u.sys p.base1 j != (scramblerBits (w.arg 2 + w.arg 3) (w.arg 1 % 2 ^ 15)).getD (w.arg 3 + j) false)) ∧
      (code = 0x24 → w.arg 3 = 0 → ∀ j, j < 8 * (w.arg 1 + 1) * w.arg 2 → bit t.sys p.base0 j = bit u.sys p.base1 j) ∧
      (code = 0x25 → w.arg 2 ≤ 65536 → ∀ j, j < 2 * w.arg 2 →
        let pr := classProfile (w.arg 1)
        let bits := (List.range (w.arg 2 * (if pr.four then 2 else 1))).map (bit u.sys p.base1)
        let as := ((dataSymbolValues pr.four (w.arg 3) bits).take (w.arg 2)).map (· * symbolUnit)
        (t.sys.elem c 10 p.base0 j).1 = turned (channelEstimate u.sys c p) (phasor pr as j)) ∧
      (code = 0x49 → (t.core c).array.active.state = 0 ∧ (t.core c).array.shadow.state = 0 ∧ (t.core c).array.token = false)

/-- A checkpoint routine gives mover queue 3 the commands that move the first ARG2 bytes of the scratchpad to (`put`) or from global
address ARG1, and returns with the last of them; it waits while the queue holds other work (R214, R216, Table 06-8). -/
def checkpointCalls : Prop :=
  ∀ (s : State) (i : Issue) (w : Cmd) (p : PortCmd) (put : Bool),
    let c := i.core.toNat
    let k := s.core c
    let u := s.issued i w
    let row := if put then Instr.rtCkptSave i else .rtCkptRestore i
    let n := min 524288 (w.arg 2)
    let moves (m : Cmd) (off burst count : Nat) : Prop := m.opcode = (if put then 0x61 else 0x60) ∧ m.queue = 3 ∧ m.tag = w.tag ∧
      m.steps = count ∧ m.burst = burst ∧ ∀ j, j < count → m.globalAt j = w.arg 1 + off + 4096 * j ∧
        m.addrAt put.toNat (m.opAddr put.toNat) j = off + 4096 * j
    calls i (if put then 0x40 else 0x41) w p s → k.inJob = false → wants w false false false →
    (moverQueue k 3 ≠ [] → exec row s = .next s) ∧
    (moverQueue k 3 = [] → ∃ t, exec row s = .next t ∧ t = { u with cores := t.cores } ∧ othersStand c s t ∧
      (n = 0 → moverQueue (t.core c) 3 = [] ∧ (t.core c).call = none ∧
        (t.core c).dones = k.dones ++ (if w.signalDone then [w.doneObj] else [])) ∧
      (0 < n → (t.core c).call = some w ∧ (t.core c).dones = k.dones ∧ t.current i = none ∧
        ∃ long tail : List MoverCmd, moverQueue (t.core c) 3 = long ++ tail ∧
          (4096 ≤ n → ∃ x, long = [x] ∧ moves x.cmd.word 0 4096 (n / 4096) ∧ x.step = 0) ∧ (n < 4096 → long = []) ∧
          (n % 4096 ≠ 0 → ∃ x, tail = [x] ∧ moves x.cmd.word (n / 4096 * 4096) (n % 4096) 1 ∧ x.step = 0) ∧
          (n % 4096 = 0 → tail = [])))

/-- The ROM routines: calls, results, checkpoints, and a checker test that fails, which fences the core with CHECKER_FAIL and returns nothing
(R224, R503, R504).
The model's own choices in it are those of log entries 121 to 126, 223, 257, 258, 265, 269. -/
def Obligations.Routines : Prop :=
  routineCalls ∧ routineResults ∧ checkpointCalls ∧
  ∀ (s : State) (i : Issue) (w : Cmd) (p : PortCmd), calls i 0x4A w p s → (s.core i.core.toNat).inJob = false →
    wants w false false false →
    ∃ t, exec (.rtCheckerTest i true) s = .next t ∧ othersStand i.core.toNat s t ∧ t.sys.coreFenced i.core.toNat = true ∧
      counted Cls.CHECKER_FAIL s t ∧ (t.core i.core.toNat).dones = []

/-! ### Cores: Signal Unit (ch. 10) -/

/-- A Signal Unit that runs stands before a legal bundle, with no write, branch, loop or halt under way. -/
def standsAt (core : BitVec 10) (s : State) (u : SignalUnit) (b : Bundle) : Prop :=
  s.up = true ∧ s.coreLive core.toNat = true ∧ (s.core core.toNat).su = u ∧ u.running = true ∧ u.run < 1048576 ∧ u.done = 0 ∧
    u.writes = [] ∧ u.delay = 0 ∧ u.target = none ∧ u.skipTo = none ∧ u.loops = [] ∧ u.halting = false ∧ u.returning = false ∧
    bundleAt u u.pc [] = b ∧ b.illegal u = none

/-- The unit after a bundle that does nothing: the next bundle, one cycle later, with `frozen` cycles of R328. -/
def nextBundle (u : SignalUnit) (frozen : Nat) : SignalUnit :=
  { u with
    pc := (u.pc + 1) % 4096, run := u.run + 1 + frozen, cycle := u.cycle + 1, order := u.order + 1, issued := true,
    sinceRti := true }

/-- The row executes the bundle and leaves the unit as `v`; besides it only counts kept in units and the count of free values may move. -/
def runsTo (core : BitVec 10) (s : State) (row : Instr) (v : SignalUnit) : Prop :=
  ∃ t, exec row s = .next t ∧ t = { s with sys := t.sys, cores := t.cores } ∧ othersStand core.toNat s t ∧
    t.core core.toNat = { s.core core.toNat with su := v } ∧
    t.sys = { s.sys with unfolded := t.sys.unfolded, seed := t.sys.seed }

/-- Registers as a bundle `n` cycles after the present one's end sees them, with what lands by then. -/
def seen (u v : SignalUnit) (n : Nat) : SignalUnit := (landUpTo (u.cycle + n) v).1

def sat32 (v : Int) : BitVec 32 := if v < -2147483648 then 0x80000000 else if 2147483647 < v then 0x7FFFFFFF else BitVec.ofInt 32 v
def sat16 (v : Int) : BitVec 16 := if v < -32768 then 0x8000 else if 32767 < v then 0x7FFF else BitVec.ofInt 16 v
def sat40 (v : Int) : Int := if v < -549755813888 then -549755813888 else if 549755813887 < v then 549755813887 else v

/-- FLAGS of an exact arithmetic value: Z, N of the 32-bit result, V (R323). -/
def flagsOf (v : Int) : Nat :=
  (if v = 0 then 1 else 0) + (if (BitVec.ofInt 32 v).toInt < 0 then 2 else 0) + (if v < -2147483648 ∨ 2147483647 < v then 4 else 0)

/-- ALU rows: opcode, result from A and B, exact value that sets FLAGS, whether B is used (Table 10-7). -/
def aluRow (i : SuIssue) (a b : BitVec 32) (row : Instr) (op : Nat) (r : Option (BitVec 32)) (f : Option Int) (two : Bool) : Prop :=
  (row = .suAdd i ∧ op = 0x01 ∧ r = some (sat32 (a.toInt + b.toInt)) ∧ f = some (a.toInt + b.toInt) ∧ two = true) ∨
  (row = .suSub i ∧ op = 0x02 ∧ r = some (sat32 (a.toInt - b.toInt)) ∧ f = some (a.toInt - b.toInt) ∧ two = true) ∨
  (row = .suAddw i ∧ op = 0x03 ∧ r = some (a + b) ∧ f = some (a.toInt + b.toInt) ∧ two = true) ∨
  (row = .suAnd i ∧ op = 0x06 ∧ r = some (a &&& b) ∧ f = none ∧ two = true) ∨
  (row = .suOr i ∧ op = 0x07 ∧ r = some (a ||| b) ∧ f = none ∧ two = true) ∨
  (row = .suXor i ∧ op = 0x08 ∧ r = some (a ^^^ b) ∧ f = none ∧ two = true) ∨
  (row = .suShr i ∧ op = 0x09 ∧ r = some (sat32 (shiftRound a.toInt (b.toNat % 32))) ∧ f = some (shiftRound a.toInt (b.toNat % 32)) ∧
    two = true) ∨
  (row = .suShl i ∧ op = 0x0A ∧ r = some (sat32 (a.toInt * 2 ^ (b.toNat % 32))) ∧ f = some (a.toInt * 2 ^ (b.toNat % 32)) ∧ two = true) ∨
  (row = .suMin i ∧ op = 0x0B ∧ r = some (if a.toInt ≤ b.toInt then a else b) ∧ f = none ∧ two = true) ∨
  (row = .suMax i ∧ op = 0x0C ∧ r = some (if a.toInt ≤ b.toInt then b else a) ∧ f = none ∧ two = true) ∨
  (row = .suAbs i ∧ op = 0x0D ∧ r = some (sat32 a.toInt.natAbs) ∧ f = some a.toInt.natAbs ∧ two = false) ∨
  (row = .suNeg i ∧ op = 0x0E ∧ r = some (sat32 (-a.toInt)) ∧ f = some (-a.toInt) ∧ two = false) ∨
  (row = .suCmp i ∧ op = 0x0F ∧ r = none ∧ f = some (a.toInt - b.toInt) ∧ two = true)

/-- The ALU slot: results and FLAGS are seen by the next bundle (R292, R316, R323, R324, R336). Which operations set FLAGS is the model's
reading, and FLAGS after ADD2 and SUB2 are free values (both in the assumption log). -/
def aluSlot : Prop :=
  ∀ (s : State) (core : BitVec 10) (u : SignalUnit) (b : Bundle), standsAt core s u b → b.lsOp = 0 → b.macOp = 0 →
    let i : SuIssue := { core := core }
    let dst := bitsOf b.alu 12 4
    let A := u.getD (bitsOf b.alu 8 4)
    let B := u.getD (bitsOf b.alu 0 4)
    let n := bitsOf b.alu 8 2
    let sh := bitsOf b.alu 0 5
    let cls := bitsOf b.alu 3 3
    let idx := bitsOf b.alu 0 3
    let writesD (row : Instr) (x : BitVec 32 × Bool) : Prop := ∃ v,
      runsTo core s row v ∧ v = { nextBundle u 0 with d := v.d, flags := v.flags } ∧ v.getD dst = x ∧
        ∀ j, j < 16 → j ≠ dst → v.getD j = u.getD j
    (∀ row op r f two, aluRow i A.1 B.1 row op r f two → b.aluOp = op → ∃ v,
      runsTo core s row v ∧ v = { nextBundle u 0 with d := v.d, flags := v.flags } ∧
        (∀ x, r = some x → v.getD dst = (x, A.2 || (two && B.2))) ∧ (∀ j, j < 16 → r = none ∨ j ≠ dst → v.getD j = u.getD j) ∧
        (∀ x, f = some x → v.getFlags = (flagsOf x, A.2 || (two && B.2))) ∧ (f = none → v.getFlags = u.getFlags)) ∧
    (b.aluOp = 0x04 → writesD (.suAdd2 i) (sat16 ((A.1.extractLsb' 16 16).toInt + (B.1.extractLsb' 16 16).toInt) ++
      sat16 ((A.1.extractLsb' 0 16).toInt + (B.1.extractLsb' 0 16).toInt), A.2 || B.2)) ∧
    (b.aluOp = 0x05 → writesD (.suSub2 i) (sat16 ((A.1.extractLsb' 16 16).toInt - (B.1.extractLsb' 16 16).toInt) ++
      sat16 ((A.1.extractLsb' 0 16).toInt - (B.1.extractLsb' 0 16).toInt), A.2 || B.2)) ∧
    (b.aluOp = 0x10 → writesD (.suMovi i) ((BitVec.ofNat 12 (bitsOf b.alu 0 12)).signExtend 32, false)) ∧
    (b.aluOp = 0x12 → (cls = 0 → writesD (.suMovd i) ((u.getP idx).setWidth 32, false)) ∧
      (cls = 1 → writesD (.suMovd i) ((u.getM idx).setWidth 32, false)) ∧
      (cls = 2 → idx < 4 → writesD (.suMovd i) ((u.getB idx).setWidth 32, false)) ∧
      (cls = 3 → idx < 4 → writesD (.suMovd i) ((u.getL idx).setWidth 32, false))) ∧
    (b.aluOp = 0x13 → writesD (.suRnd i) (sat32 (shiftRound (u.getAcc n).1 sh), (u.getAcc n).2)) ∧
    (b.aluOp = 0x14 → n = 0 ∨ n = 2 → writesD (.suRndc i) (sat16 (shiftRound (u.getAcc (n + 1)).1 sh) ++
      sat16 (shiftRound (u.getAcc n).1 sh), (u.getAcc n).2 || (u.getAcc (n + 1)).2)) ∧
    (b.aluOp = 0x11 → ∃ v, runsTo core s (.suMova i) v ∧ v = { nextBundle u 0 with writes := v.writes } ∧
      let x := (u.getD dst).1.setWidth 16
      (cls = 0 → (seen u v 1).getP idx = x) ∧ (cls = 1 → (seen u v 1).getM idx = x) ∧
      (cls = 2 → idx < 4 → (seen u v 1).getB idx = x) ∧ (cls = 3 → idx < 4 → (seen u v 1).getL idx = x)) ∧
    (b.aluOp = 0x15 → ∃ v, runsTo core s (.suAccld i) v ∧ v = { nextBundle u 0 with acc := v.acc } ∧
      v.getAcc (bitsOf b.alu 12 2) = (A.1.toInt, A.2) ∧ ∀ j, j < 4 → j ≠ bitsOf b.alu 12 2 → v.getAcc j = u.getAcc j) ∧
    (b.aluOp = 0x16 → ∃ v, runsTo core s (.suClracc i) v ∧ v = { nextBundle u 0 with acc := v.acc } ∧
      ∀ j, j < 4 → v.getAcc j = if b.alu.testBit j then (0, false) else u.getAcc j)

/-- The value a MAC slot adds to accumulator `j` (`none`: it leaves it), from the ACC field and DA to DD (Table 10-6). -/
def macAdds (op n j : Nat) (a b c d : BitVec 32) : Option Int :=
  let lo (x : BitVec 32) : Int := (x.extractLsb' 0 16).toInt
  let hi (x : BitVec 32) : Int := (x.extractLsb' 16 16).toInt
  let re (x y : BitVec 32) : Int := lo x * lo y - hi x * hi y
  let im (x y : BitVec 32) : Int := lo x * hi y + hi x * lo y
  if op = 1 ∨ op = 8 then (if j = n then some (lo a * lo b) else none)
  else if op = 2 then (if j = n then some (-(lo a * lo b)) else none)
  else if op = 3 then (if j = n then some (lo a * lo b + hi a * hi b) else none)
  else if op = 4 ∨ op = 9 then (if j = n then some (re a b) else if j = n + 1 then some (im a b) else none)
  else if op = 5 then
    (if j = n then some (lo a * lo b + hi a * hi b) else if j = n + 1 then some (hi a * lo b - lo a * hi b) else none)
  else if op = 6 then (if j = n then some (re a b + re c d) else if j = n + 1 then some (im a b + im c d) else none)
  else if op = 7 then
    (if j = 0 then some (re a b) else if j = 1 then some (im a b) else if j = 2 then some (re c d) else some (im c d))
  else (if j = n then some (lo a * lo a + hi a * hi a) else none)

/-- The MAC slot: accumulators change at the end of the third cycle, saturating at 40 bits, and no other register changes (R321, R322,
R324, R336). -/
def macSlot : Prop :=
  ∀ (s : State) (core : BitVec 10) (u : SignalUnit) (b : Bundle), standsAt core s u b → b.lsOp = 0 → b.aluOp = 0 →
    1 ≤ b.macOp → b.macOp ≤ 10 →
    let i : SuIssue := { core := core }
    let n := bitsOf b.mac 16 2
    let D (lo : Nat) : BitVec 32 × Bool := u.getD (bitsOf b.mac lo 4)
    let adds (j : Nat) : Option Int := macAdds b.macOp n j (D 12).1 (D 8).1 (D 4).1 (D 0).1
    let poison (j : Nat) : Bool := if b.macOp = 6 then (D 12).2 || (D 8).2 || ((D 4).2 || (D 0).2)
      else if b.macOp = 7 ∧ 2 ≤ j then (D 4).2 || (D 0).2 else if b.macOp = 10 then (D 12).2 else (D 12).2 || (D 8).2
    let set := b.macOp = 8 ∨ b.macOp = 9
    ∃ v, runsTo core s (match b.macOp with
        | 1 => .suMac i | 2 => .suMsu i | 3 => .suMac2 i | 4 => .suCmac i | 5 => .suCmacc i | 6 => .suCmac2 i | 7 => .suCmacd i
        | 8 => .suMpy i | 9 => .suCmpy i | _ => .suCmag i) v ∧
      v = { nextBundle u 0 with writes := v.writes } ∧ (seen u v 1).acc = u.acc ∧
      ∀ j, j < 4 → (adds j = none → (seen u v 2).getAcc j = u.getAcc j) ∧
        ∀ x, adds j = some x → (set → (seen u v 2).getAcc j = (x, poison j)) ∧
          (¬ set → (seen u v 2).getAcc j = (sat40 ((u.getAcc j).1 + x), (u.getAcc j).2 || poison j))

/-- The address a pointer gives and the pointer afterwards (R319, R320). -/
def pointer (u : SignalUnit) (am n : Nat) : BitVec 16 × BitVec 16 :=
  let p := u.getP n
  let m := u.getM n
  let l : Int := (u.getL n).toNat
  let o : Int := ((p - u.getB n).toNat : Int) + m.toInt
  if am = 0 then (p, p)
  else if am = 1 ∨ (am = 2 ∧ l = 0) then (p, p + m)
  else if am = 2 then (p, u.getB n + BitVec.ofInt 16 (if l ≤ o then o - l else if o < 0 then o + l else o))
  else (p + m, p)

/-- `n` bytes of a Signal Unit memory of `size` bytes from an address with its low bits ignored. -/
def suWord (m : SMap Byte) (size n : Nat) (a : BitVec 16) : Nat :=
  bytesToNat ((List.range n).map fun j => memByte m ((a.toNat / n * n + j) % size))

/-- The load and store slot: loads land two cycles later, pointers move at once, stores are there for the next bundle and carry poison
(R314, R318 to R320, R324, R328, R336). -/
def lsSlot : Prop :=
  ∀ (s : State) (core : BitVec 10) (u : SignalUnit) (b : Bundle), standsAt core s u b → b.macOp = 0 → b.aluOp = 0 →
    let i : SuIssue := { core := core }
    let am := bitsOf b.ls 0 2
    let pa := bitsOf b.ls 5 3
    let pb := bitsOf b.ls 2 3
    let da := bitsOf b.ls 12 4
    let db := bitsOf b.ls 8 4
    let aa := pointer u am pa
    let ab := pointer u am pb
    let others (v : SignalUnit) (two : Bool) : Prop := v.getP pa = aa.2 ∧ (two = true → v.getP pb = ab.2) ∧
      ∀ j, j < 8 → j ≠ pa → two = false ∨ j ≠ pb → v.getP j = u.getP j
    let load (row : Instr) (op frozen : Nat) (x : BitVec 32 × Bool) : Prop := b.lsOp = op → ∃ v, runsTo core s row v ∧
      v = { nextBundle u frozen with p := v.p, writes := v.writes } ∧ others v false ∧ (seen u v 1).d = u.d ∧ (seen u v 2).getD da = x ∧
        ∀ j, j < 16 → j ≠ da → (seen u v 2).getD j = u.getD j
    let loadTwo (row : Instr) (op frozen : Nat) (y : BitVec 32 × Bool) : Prop := b.lsOp = op → da ≠ db → ∃ v, runsTo core s row v ∧
      v = { nextBundle u frozen with p := v.p, writes := v.writes } ∧ others v true ∧
      (seen u v 2).getD da = (BitVec.ofNat 32 (suWord u.x 65536 4 aa.1), flagAt u.xPoison (aa.1.toNat / 8)) ∧ (seen u v 2).getD db = y ∧
        ∀ j, j < 16 → j ≠ da → j ≠ db → (seen u v 2).getD j = u.getD j
    let stored (n : Nat) (m m' : SMap Byte) (q q' l l' : SMap Bool) : Prop :=
      let a := aa.1.toNat / n * n
      (∀ j, j < n → memByte m' (a + j) = BitVec.ofNat 8 ((u.getD da).1.toNat / 2 ^ (8 * j))) ∧
      (∀ x, x < a ∨ a + n ≤ x → memByte m' x = memByte m x) ∧
      flagAt q' (a / 8) = (flagAt q (a / 8) || ((u.getD da).2 || u.sticky)) ∧ (∀ x, x ≠ a / 8 → flagAt q' x = flagAt q x) ∧
      ∀ x, flagAt l' x = (flagAt l x || x == a / 64)
    load (.suLdx i) 1 0 (BitVec.ofNat 32 (suWord u.x 65536 4 aa.1), flagAt u.xPoison (aa.1.toNat / 8)) ∧
    load (.suLdy i) 2 0 (BitVec.ofNat 32 (suWord u.y 65536 4 aa.1), flagAt u.yPoison (aa.1.toNat / 8)) ∧
    load (.suLdx16 i) 6 0 ((BitVec.ofNat 16 (suWord u.x 65536 2 aa.1)).signExtend 32, flagAt u.xPoison (aa.1.toNat / 8)) ∧
    load (.suLdy16 i) 7 0 ((BitVec.ofNat 16 (suWord u.y 65536 2 aa.1)).signExtend 32, flagAt u.yPoison (aa.1.toNat / 8)) ∧
    load (.suLdc i) 9 1 (BitVec.ofNat 32 (suWord u.c 32768 4 aa.1), false) ∧
    loadTwo (.suLdxy i) 3 0 (BitVec.ofNat 32 (suWord u.y 65536 4 ab.1), flagAt u.yPoison (ab.1.toNat / 8)) ∧
    loadTwo (.suLdxc i) 10 1 (BitVec.ofNat 32 (suWord u.c 32768 4 ab.1), false) ∧
    (b.lsOp = 4 → ∃ v, runsTo core s (.suStx i) v ∧ v = { nextBundle u 0 with p := v.p, x := v.x, xPoison := v.xPoison, xValid := v.xValid } ∧
      others v false ∧ stored 4 u.x v.x u.xPoison v.xPoison u.xValid v.xValid) ∧
    (b.lsOp = 8 → ∃ v, runsTo core s (.suStx16 i) v ∧ v = { nextBundle u 0 with p := v.p, x := v.x, xPoison := v.xPoison, xValid := v.xValid } ∧
      others v false ∧ stored 2 u.x v.x u.xPoison v.xPoison u.xValid v.xValid) ∧
    (b.lsOp = 5 → ∃ v, runsTo core s (.suSty i) v ∧ v = { nextBundle u 0 with p := v.p, y := v.y, yPoison := v.yPoison, yValid := v.yValid } ∧
      others v false ∧ stored 4 u.y v.y u.yPoison v.yPoison u.yValid v.yValid)

/-- Control: the empty bundle, loops, branches with two delay slots, the return from an interrupt and the end of a program; an illegal
bundle stops the unit with SU_ILLEGAL (R317, R322, R326, R327, R329, R333, R335). -/
def controlSlot : Prop :=
  (∀ (s : State) (core : BitVec 10) (u : SignalUnit) (b : Bundle), standsAt core s u b → b.lsOp = 0 → b.macOp = 0 →
    let i : SuIssue := { core := core }
    let len := bitsOf b.alu 0 6 + 1
    let loops (row : Instr) (count : Nat) : Prop :=
      (count = 0 → runsTo core s row { nextBundle u 0 with pc := (u.pc + len + 1) % 4096 }) ∧
      (1 ≤ count → runsTo core s row { nextBundle u 0 with
        loops := [{ first := u.pc + 1, last := u.pc + len, left := count, handler := u.handler }] })
    let z := u.getFlags.1.testBit 0
    let lt := u.getFlags.1.testBit 1 != u.getFlags.1.testBit 2
    let cond := bitsOf b.alu 12 4
    let taken : Bool := match cond with
      | 0 => true | 1 => z | 2 => !z | 3 => lt | 4 => !lt | 5 => !(lt || z) | _ => lt || z
    (b.aluOp = 0x00 → runsTo core s (.suNop i) (nextBundle u 0)) ∧
    (b.aluOp = 0x20 → loops (.suLoop i) (bitsOf b.alu 6 10)) ∧
    (b.aluOp = 0x21 → loops (.suLoopd i) ((u.getD (bitsOf b.alu 8 4)).1.toNat % 65536)) ∧
    (b.aluOp = 0x22 → cond ≤ 6 → runsTo core s (.suBra i) { nextBundle u 0 with
      delay := 2, sticky := u.sticky || (u.getFlags.2 && cond != 0),
      target := if taken then some (BitVec.ofInt 12 ((u.pc : Int) + (BitVec.ofNat 12 (bitsOf b.alu 0 12)).toInt)).toNat else none }) ∧
    (b.aluOp = 0x22 → 6 < cond → ∃ go : Bool, runsTo core s (.suBra i) { nextBundle u 0 with
      delay := 2, sticky := u.sticky || u.getFlags.2,
      target := if go then some (BitVec.ofInt 12 ((u.pc : Int) + (BitVec.ofNat 12 (bitsOf b.alu 0 12)).toInt)).toNat else none }) ∧
    (b.aluOp = 0x23 → (u.handler = true → runsTo core s (.suRti i) { nextBundle u 0 with
        pc := u.savedPc, handler := false, sinceRti := false }) ∧
      (u.handler = false → runsTo core s (.suRti i) (nextBundle u 0))) ∧
    (b.aluOp = 0x24 → ∀ p, u.port = [p] → ∃ t, exec (.suHalt i) s = .next t ∧ t = { s with sys := t.sys, cores := t.cores } ∧
      othersStand core.toNat s t ∧ t.core core.toNat = { (s.core core.toNat).complete p.word with
        su := { nextBundle u 0 with pc := u.pc, running := false, started := false, port := [] } })) ∧
  (∀ (s : State) (core : BitVec 10) (u : SignalUnit) (k : Nat), s.up = true → s.coreLive core.toNat = true →
    (s.core core.toNat).su = u → u.running = true → u.run < 1048576 → u.done = 0 → (bundleAt u u.pc []).illegal u = some k →
    let i : SuIssue := { core := core }
    ∀ row ∈ [Instr.suNop i, .suLdx i, .suMac i, .suAdd i], ∃ t, exec row s = .next t ∧
      t = { s with cores := t.cores, sys := s.sys.fault Cls.SU_ILLEGAL UnitCode.signalUnit core.toNat u.tag (u.pc + k * 65536) } ∧
      othersStand core.toNat s t ∧ t.core core.toNat = { s.core core.toNat with su := { u with running := false } }) ∧
  ∀ (s : State) (core : BitVec 10) (u : SignalUnit) (a : Nat) (w : SuWrite), standsAt core s { u with delay := 0, target := none, writes := [] }
      (bundleAt u u.pc []) → (bundleAt u u.pc []).lsOp = 0 → (bundleAt u u.pc []).macOp = 0 → (bundleAt u u.pc []).aluOp = 0 →
    let i : SuIssue := { core := core }
    let from_ (v : SignalUnit) : State := s.onCore core.toNat fun k => { k with su := v }
    (∀ v, v = { u with delay := 2, target := some a } → v.writes = [] →
      runsTo core (from_ v) (.suNop i) { nextBundle v 0 with delay := 1 }) ∧
    (∀ v, v = { u with delay := 1, target := some a } → v.writes = [] →
      runsTo core (from_ v) (.suNop i) { nextBundle v 0 with delay := 0, target := none, pc := a }) ∧
    ∀ v, v = { u with delay := 0, target := none, writes := [w] } → w.at_ = v.cycle → w.kind = 6 → w.bank = v.bank → w.idx < 4 →
      let x := (v.getAcc w.idx).1 + w.val
      ∃ t y, exec (.suNop i) (from_ v) = .next t ∧ (t.core core.toNat).su = y ∧
        y.getAcc w.idx = (sat40 x, (v.getAcc w.idx).2 || w.poison) ∧ natAt t.sys.unfolded Cls.SU_ACC_SAT =
          natAt s.sys.unfolded Cls.SU_ACC_SAT + (if sat40 x = x then 0 else 1)

/-- The slots of a Signal Unit bundle.
The model's own choices in it are those of log entries 127 to 134, 136, 137. -/
def Obligations.SignalSlots : Prop := aluSlot ∧ macSlot ∧ lsSlot ∧ controlSlot

/-- SIG.START starts a program with its arguments in X memory; SIG.XFER moves bytes between X memory and the scratchpad, poison with an
uncorrectable word, and raises MODE where a job's would write the runtime's programs; SIG.IRQ sets a line's pending bit; the lowest pending line is taken at a bundle boundary, and not
in a handler or in a branch's delay slots; 1,048,576 cycles stop a program with SU_TIMEOUT (R314, R315, R329, R330, R332, R333).
The model's own choices in it are those of log entries 133, 135. -/
def Obligations.SignalControl : Prop :=
  (∀ (s : State) (i : Issue) (w : Cmd),
    let c := i.core.toNat
    let k := s.core c
    let u := s.issued i w
    (plainCommand i 0x80 w s → w.param 0 0 16 < 4096 → k.vec = [] → k.su.port = [] → k.su.started = false →
      ∃ t, exec (.sigStart i) s = .next t ∧ t = { u with cores := t.cores } ∧ othersStand c s t ∧ (t.core c).dones = k.dones ∧
        (t.core c).su.running = true ∧ (t.core c).su.started = true ∧ (t.core c).su.pc = w.param 0 0 16 ∧ (t.core c).su.run = 0 ∧
        (t.core c).su.handler = false ∧ (∃ p, (t.core c).su.port = [p] ∧ p.word = w) ∧ (t.core c).su.y = k.su.y ∧
        ∀ a, memByte (t.core c).su.x a =
          if a < 32 then BitVec.ofNat 8 (w.param (4 + 4 * (a / 4)) 0 32 / 2 ^ (8 * (a % 4))) else memByte k.su.x a) ∧
    (∀ p, atCommand i 0x81 w p s → xferLegal w = true → w.levels = 0 → k.vec = [] → k.su.port = [] → k.su.started = false →
      let len := w.param 4 0 16
      let a := w.param 2 0 16 / 2 * 2
      (w.param 0 0 8 = 0 → ∃ t, exec (.sigXfer i) s = .next t ∧ t = { u with cores := t.cores } ∧ othersStand c s t ∧
        (t.core c).dones = k.dones ++ (if w.signalDone then [w.doneObj] else []) ∧ (t.core c).su.port = [] ∧
        (∀ j, j < len → memByte (t.core c).su.x ((a + j) % 65536) = u.sys.peek (spadByte c (p.addr 1 0 + j))) ∧
        ∀ x, (∀ j, j < len → x ≠ (a + j) % 65536) → memByte (t.core c).su.x x = memByte k.su.x x) ∧
      (w.param 0 0 8 = 2 → ∃ t, exec (.sigXfer i) s = .next t ∧ othersStand c s t ∧ (t.core c).su = k.su ∧
        (i.flips = [] → ∀ j, j < len → t.sys.peek (spadByte c (p.addr 0 0 + j)) = memByte k.su.x ((a + j) % 65536)) ∧
        ((secdedDecode i.flips).bad = true → k.su.checked 0 a = true → counted Cls.MEM_UE s t ∧ t.sys.spadPoison c (p.addr 0 0) 1 = true) ∧
        ∀ x, (∀ j, j < len → x ≠ spadByte c (p.addr 0 0 + j)) → t.sys.peek x = u.sys.peek x) ∧
      (w.param 0 0 8 = 4 → k.inJob = true → w.param 2 0 16 < 0x4000 →
        exec (.sigXfer i) s = .next (s.cmdFault Cls.MODE UnitCode.signalUnit c w.tag 0))) ∧
    (plainCommand i 0x82 w s → w.param 0 0 8 ≤ 3 →
      ∃ t, exec (.sigIrq i) s = .next t ∧ t = { u with cores := t.cores } ∧ othersStand c s t ∧
        (t.core c).su = { k.su with pending := (t.core c).su.pending } ∧
        ∀ n, n < 4 → (t.core c).su.pending.getLsbD n = (k.su.pending.getLsbD n || decide (n = w.param 0 0 8)))) ∧
  ∀ (s : State) (core : BitVec 10), s.up = true → s.coreLive core.toNat = true →
    let k := s.core core.toNat
    (∀ n, n < 4 → k.su.pending.getLsbD n = true → (∀ m, m < n → k.su.pending.getLsbD m = false) → k.su.running = true →
      k.su.issued = true → k.su.handler = false → k.su.delay = 0 → k.su.done = 0 → k.su.sinceRti = true →
      ∃ t, exec (.suInterruptTaken core) s = .next t ∧ t = { s with cores := t.cores } ∧ othersStand core.toNat s t ∧
        t.core core.toNat = { k with su := { k.su with
          savedPc := k.su.pc, handler := true, pc := 0x800 + 16 * n, pending := k.su.pending &&& ~~~(1#4 <<< n) } }) ∧
    (k.su.handler = true ∨ k.su.running = false ∨ k.su.pending = 0 ∨ k.su.delay ≠ 0 → exec (.suInterruptTaken core) s = .next s) ∧
    (k.su.running = true → 1048576 ≤ k.su.run →
      ∃ t, exec (.suTimeout core) s = .next t ∧ othersStand core.toNat s t ∧
        t = { s with cores := t.cores, sys := s.sys.fault Cls.SU_TIMEOUT UnitCode.signalUnit core.toNat k.su.tag k.su.pc } ∧
        t.core core.toNat = { k with su := { k.su with running := false } }) ∧
    (k.su.run < 1048576 → exec (.suTimeout core) s = .next s)
end

