-- ==== Sys2Proof/Laws/Maps.lean ====
section
/-! SUPPORT. Laws of sparse maps: what a key reads as after a write, and that every operation keeps the canonical form. -/

namespace Sys2Proof.Machine

variable {α : Type} [DecidableEq α] {d : Nat → α} {m : SMap α} {j k : Nat} {v : α}

/-! ### Reads after writes, for every list -/

omit [DecidableEq α] in
theorem mapGet_filter_ne (h : j ≠ k) : mapGet d j (m.filter fun e => e.1 != k) = mapGet d j m := by
  induction m with
  | nil => rfl
  | cons e m ih =>
    by_cases he : e.1 = k
    · have hj : ¬ e.1 = j := fun x => h (x.symm.trans he)
      simp only [List.filter_cons, he, bne_self_eq_false, Bool.false_eq_true, ↓reduceIte, ih]
      rw [mapGet, if_neg hj]
    · simp only [List.filter_cons, bne_iff_ne, ne_eq, he, not_false_eq_true, ↓reduceIte, mapGet, ih]

omit [DecidableEq α] in
theorem mapGet_filter_self : mapGet d k (m.filter fun e => e.1 != k) = d k := by
  induction m with
  | nil => rfl
  | cons e m ih =>
    by_cases he : e.1 = k
    · simp only [List.filter_cons, he, bne_self_eq_false, Bool.false_eq_true, ↓reduceIte, ih]
    · simp only [List.filter_cons, bne_iff_ne, ne_eq, he, not_false_eq_true, ↓reduceIte, mapGet, ih]

omit [DecidableEq α] in
theorem mapGet_insert_ne (h : j ≠ k) : mapGet d j (mapInsert k v m) = mapGet d j m := by
  induction m with
  | nil => simp [mapInsert, mapGet, Ne.symm h]
  | cons e m ih =>
    unfold mapInsert
    split
    · rw [mapGet, if_neg (Ne.symm h)]
    · simp only [mapGet, ih]

omit [DecidableEq α] in
theorem mapGet_insert_self (h : ∀ e ∈ m, e.1 ≠ k) : mapGet d k (mapInsert k v m) = v := by
  induction m with
  | nil => simp [mapInsert, mapGet]
  | cons e m ih =>
    unfold mapInsert
    split
    · rw [mapGet, if_pos rfl]
    · rw [mapGet, if_neg (h e (List.mem_cons_self ..))]
      exact ih fun x hx => h x (List.mem_cons_of_mem _ hx)

/-- A key reads as what was set. -/
@[simp] theorem mapGet_mapSet_self : mapGet d k (mapSet d k v m) = v := by
  unfold mapSet
  split
  · rename_i h; rw [mapGet_filter_self, h]
  · exact mapGet_insert_self (by simp)

/-- Another key reads as before. -/
theorem mapGet_mapSet_ne (h : j ≠ k) : mapGet d j (mapSet d k v m) = mapGet d j m := by
  unfold mapSet
  split
  · exact mapGet_filter_ne h
  · rw [mapGet_insert_ne h, mapGet_filter_ne h]

theorem mapGet_mapSet : mapGet d j (mapSet d k v m) = if j = k then v else mapGet d j m := by
  split
  · rename_i h; rw [h, mapGet_mapSet_self]
  · rename_i h; exact mapGet_mapSet_ne h

/-! ### The canonical form -/

theorem mapWf_filter {p : Nat × α → Bool} (h : mapWf d m = true) : mapWf d (m.filter p) = true := by
  induction m with
  | nil => rfl
  | cons e m ih =>
    simp only [mapWf, Bool.and_eq_true, List.all_eq_true] at h
    simp only [List.filter_cons]
    split
    · simp only [mapWf, Bool.and_eq_true, List.all_eq_true]
      exact ⟨⟨h.1.1, fun x hx => h.1.2 x ((List.mem_filter.mp hx).1)⟩, ih h.2⟩
    · exact ih h.2

omit [DecidableEq α] in
theorem mem_mapInsert {e : Nat × α} (h : e ∈ mapInsert k v m) : e = (k, v) ∨ e ∈ m := by
  induction m with
  | nil => simpa [mapInsert] using h
  | cons x m ih =>
    unfold mapInsert at h
    split at h
    · simpa using h
    · rcases List.mem_cons.mp h with rfl | h
      · exact .inr (List.mem_cons_self ..)
      · exact (ih h).imp id (List.mem_cons_of_mem _)

theorem mapWf_insert (h : mapWf d m = true) (hv : v ≠ d k) (hk : ∀ e ∈ m, e.1 ≠ k) : mapWf d (mapInsert k v m) = true := by
  induction m with
  | nil => simpa [mapInsert, mapWf] using hv
  | cons e m ih =>
    have h' := h
    simp only [mapWf, Bool.and_eq_true, List.all_eq_true, decide_eq_true_eq] at h
    unfold mapInsert
    split
    · rename_i hlt
      simp only [mapWf, Bool.and_eq_true, List.all_eq_true, decide_eq_true_eq]
      refine ⟨⟨hv, fun x hx => ?_⟩, h⟩
      rcases List.mem_cons.mp hx with rfl | hx
      · exact hlt
      · exact Nat.lt_trans hlt (h.1.2 x hx)
    · rename_i hlt
      simp only [mapWf, Bool.and_eq_true, List.all_eq_true, decide_eq_true_eq]
      refine ⟨⟨h.1.1, fun x hx => ?_⟩, ih h.2 fun x hx => hk x (List.mem_cons_of_mem _ hx)⟩
      rcases mem_mapInsert hx with rfl | hx
      · have := hk e (List.mem_cons_self ..); simp only; omega
      · exact h.1.2 x hx

/-- Setting a key keeps the canonical form. -/
theorem mapWf_mapSet (h : mapWf d m = true) : mapWf d (mapSet d k v m) = true := by
  unfold mapSet
  split
  · exact mapWf_filter h
  · rename_i hv; exact mapWf_insert (mapWf_filter h) hv (by simp)

theorem mapWf_mapFilter {p : Nat → Bool} (h : mapWf d m = true) : mapWf d (mapFilter p m) = true := mapWf_filter h

theorem mapWf_foldl {β : Type} {f : SMap α → β → SMap α} (hf : ∀ a b, mapWf d a = true → mapWf d (f a b) = true) (l : List β)
    (h : mapWf d m = true) : mapWf d (l.foldl f m) = true := by
  induction l generalizing m with
  | nil => exact h
  | cons b l ih => exact ih (hf _ _ h)

/-! ### Counts and flags -/

@[simp] theorem natAt_natPut_self {m : SMap Nat} {v : Nat} : natAt (natPut m k v) k = v := mapGet_mapSet_self
theorem natAt_natPut_ne {m : SMap Nat} {v : Nat} (h : j ≠ k) : natAt (natPut m k v) j = natAt m j := mapGet_mapSet_ne h
@[simp] theorem flagAt_flagPut_self {m : SMap Bool} {v : Bool} : flagAt (flagPut m k v) k = v := mapGet_mapSet_self
theorem flagAt_flagPut_ne {m : SMap Bool} {v : Bool} (h : j ≠ k) : flagAt (flagPut m k v) j = flagAt m j := mapGet_mapSet_ne h

end Sys2Proof.Machine
end

