-- ==== Sys2Proof/Laws/State.lean ====
section
/-! SUPPORT. One lemma per field per update of the state: an update reads back what it wrote and leaves every other field alone. -/

namespace Sys2Proof.Machine

/-! ### onSys -/

@[simp] theorem State.onSys_pending (s : State) (f : Sys → Sys) : (s.onSys f).pending = s.pending := rfl
@[simp] theorem State.onSys_sys (s : State) (f : Sys → Sys) : (s.onSys f).sys = f s.sys := rfl
@[simp] theorem State.onSys_heron (s : State) (f : Sys → Sys) : (s.onSys f).heron = s.heron := rfl
@[simp] theorem State.onSys_power (s : State) (f : Sys → Sys) : (s.onSys f).power = s.power := rfl
@[simp] theorem State.onSys_storage (s : State) (f : Sys → Sys) : (s.onSys f).storage = s.storage := rfl
@[simp] theorem State.onSys_sluice (s : State) (f : Sys → Sys) : (s.onSys f).sluice = s.sluice := rfl
@[simp] theorem State.onSys_time (s : State) (f : Sys → Sys) : (s.onSys f).time = s.time := rfl
@[simp] theorem State.onSys_pins (s : State) (f : Sys → Sys) : (s.onSys f).pins = s.pins := rfl
@[simp] theorem State.onSys_jtag (s : State) (f : Sys → Sys) : (s.onSys f).jtag = s.jtag := rfl
@[simp] theorem State.onSys_job (s : State) (f : Sys → Sys) : (s.onSys f).job = s.job := rfl
@[simp] theorem State.onSys_rx (s : State) (f : Sys → Sys) : (s.onSys f).rx = s.rx := rfl
@[simp] theorem State.onSys_decoders (s : State) (f : Sys → Sys) : (s.onSys f).decoders = s.decoders := rfl
@[simp] theorem State.onSys_soft (s : State) (f : Sys → Sys) : (s.onSys f).soft = s.soft := rfl
@[simp] theorem State.onSys_sessions (s : State) (f : Sys → Sys) : (s.onSys f).sessions = s.sessions := rfl
@[simp] theorem State.onSys_downlink (s : State) (f : Sys → Sys) : (s.onSys f).downlink = s.downlink := rfl
@[simp] theorem State.onSys_image (s : State) (f : Sys → Sys) : (s.onSys f).image = s.image := rfl
@[simp] theorem State.onSys_adapt (s : State) (f : Sys → Sys) : (s.onSys f).adapt = s.adapt := rfl
@[simp] theorem State.onSys_cores (s : State) (f : Sys → Sys) : (s.onSys f).cores = s.cores := rfl
@[simp] theorem State.onSys_comp (s : State) (f : Sys → Sys) : (s.onSys f).comp = s.comp := rfl
@[simp] theorem State.onSys_net (s : State) (f : Sys → Sys) : (s.onSys f).net = s.net := rfl

/-! ### onNet -/

@[simp] theorem State.onNet_pending (s : State) (f : Net → Net) : (s.onNet f).pending = s.pending := rfl
@[simp] theorem State.onNet_sys (s : State) (f : Net → Net) : (s.onNet f).sys = s.sys := rfl
@[simp] theorem State.onNet_heron (s : State) (f : Net → Net) : (s.onNet f).heron = s.heron := rfl
@[simp] theorem State.onNet_power (s : State) (f : Net → Net) : (s.onNet f).power = s.power := rfl
@[simp] theorem State.onNet_storage (s : State) (f : Net → Net) : (s.onNet f).storage = s.storage := rfl
@[simp] theorem State.onNet_sluice (s : State) (f : Net → Net) : (s.onNet f).sluice = s.sluice := rfl
@[simp] theorem State.onNet_time (s : State) (f : Net → Net) : (s.onNet f).time = s.time := rfl
@[simp] theorem State.onNet_pins (s : State) (f : Net → Net) : (s.onNet f).pins = s.pins := rfl
@[simp] theorem State.onNet_jtag (s : State) (f : Net → Net) : (s.onNet f).jtag = s.jtag := rfl
@[simp] theorem State.onNet_job (s : State) (f : Net → Net) : (s.onNet f).job = s.job := rfl
@[simp] theorem State.onNet_rx (s : State) (f : Net → Net) : (s.onNet f).rx = s.rx := rfl
@[simp] theorem State.onNet_decoders (s : State) (f : Net → Net) : (s.onNet f).decoders = s.decoders := rfl
@[simp] theorem State.onNet_soft (s : State) (f : Net → Net) : (s.onNet f).soft = s.soft := rfl
@[simp] theorem State.onNet_sessions (s : State) (f : Net → Net) : (s.onNet f).sessions = s.sessions := rfl
@[simp] theorem State.onNet_downlink (s : State) (f : Net → Net) : (s.onNet f).downlink = s.downlink := rfl
@[simp] theorem State.onNet_image (s : State) (f : Net → Net) : (s.onNet f).image = s.image := rfl
@[simp] theorem State.onNet_adapt (s : State) (f : Net → Net) : (s.onNet f).adapt = s.adapt := rfl
@[simp] theorem State.onNet_cores (s : State) (f : Net → Net) : (s.onNet f).cores = s.cores := rfl
@[simp] theorem State.onNet_comp (s : State) (f : Net → Net) : (s.onNet f).comp = s.comp := rfl
@[simp] theorem State.onNet_net (s : State) (f : Net → Net) : (s.onNet f).net = f s.net := rfl

/-! ### setCore -/

@[simp] theorem State.setCore_pending (s : State) (c : Nat) (k : Core) : (s.setCore c k).pending = s.pending := rfl
@[simp] theorem State.setCore_sys (s : State) (c : Nat) (k : Core) : (s.setCore c k).sys = s.sys := rfl
@[simp] theorem State.setCore_heron (s : State) (c : Nat) (k : Core) : (s.setCore c k).heron = s.heron := rfl
@[simp] theorem State.setCore_power (s : State) (c : Nat) (k : Core) : (s.setCore c k).power = s.power := rfl
@[simp] theorem State.setCore_storage (s : State) (c : Nat) (k : Core) : (s.setCore c k).storage = s.storage := rfl
@[simp] theorem State.setCore_sluice (s : State) (c : Nat) (k : Core) : (s.setCore c k).sluice = s.sluice := rfl
@[simp] theorem State.setCore_time (s : State) (c : Nat) (k : Core) : (s.setCore c k).time = s.time := rfl
@[simp] theorem State.setCore_pins (s : State) (c : Nat) (k : Core) : (s.setCore c k).pins = s.pins := rfl
@[simp] theorem State.setCore_jtag (s : State) (c : Nat) (k : Core) : (s.setCore c k).jtag = s.jtag := rfl
@[simp] theorem State.setCore_job (s : State) (c : Nat) (k : Core) : (s.setCore c k).job = s.job := rfl
@[simp] theorem State.setCore_rx (s : State) (c : Nat) (k : Core) : (s.setCore c k).rx = s.rx := rfl
@[simp] theorem State.setCore_decoders (s : State) (c : Nat) (k : Core) : (s.setCore c k).decoders = s.decoders := rfl
@[simp] theorem State.setCore_soft (s : State) (c : Nat) (k : Core) : (s.setCore c k).soft = s.soft := rfl
@[simp] theorem State.setCore_sessions (s : State) (c : Nat) (k : Core) : (s.setCore c k).sessions = s.sessions := rfl
@[simp] theorem State.setCore_downlink (s : State) (c : Nat) (k : Core) : (s.setCore c k).downlink = s.downlink := rfl
@[simp] theorem State.setCore_image (s : State) (c : Nat) (k : Core) : (s.setCore c k).image = s.image := rfl
@[simp] theorem State.setCore_adapt (s : State) (c : Nat) (k : Core) : (s.setCore c k).adapt = s.adapt := rfl
@[simp] theorem State.setCore_cores (s : State) (c : Nat) (k : Core) : (s.setCore c k).cores = mapSet coreDefault c k s.cores := rfl
@[simp] theorem State.setCore_comp (s : State) (c : Nat) (k : Core) : (s.setCore c k).comp = s.comp := rfl
@[simp] theorem State.setCore_net (s : State) (c : Nat) (k : Core) : (s.setCore c k).net = s.net := rfl

/-! ### onCore -/

@[simp] theorem State.onCore_pending (s : State) (c : Nat) (f : Core → Core) : (s.onCore c f).pending = s.pending := rfl
@[simp] theorem State.onCore_sys (s : State) (c : Nat) (f : Core → Core) : (s.onCore c f).sys = s.sys := rfl
@[simp] theorem State.onCore_heron (s : State) (c : Nat) (f : Core → Core) : (s.onCore c f).heron = s.heron := rfl
@[simp] theorem State.onCore_power (s : State) (c : Nat) (f : Core → Core) : (s.onCore c f).power = s.power := rfl
@[simp] theorem State.onCore_storage (s : State) (c : Nat) (f : Core → Core) : (s.onCore c f).storage = s.storage := rfl
@[simp] theorem State.onCore_sluice (s : State) (c : Nat) (f : Core → Core) : (s.onCore c f).sluice = s.sluice := rfl
@[simp] theorem State.onCore_time (s : State) (c : Nat) (f : Core → Core) : (s.onCore c f).time = s.time := rfl
@[simp] theorem State.onCore_pins (s : State) (c : Nat) (f : Core → Core) : (s.onCore c f).pins = s.pins := rfl
@[simp] theorem State.onCore_jtag (s : State) (c : Nat) (f : Core → Core) : (s.onCore c f).jtag = s.jtag := rfl
@[simp] theorem State.onCore_job (s : State) (c : Nat) (f : Core → Core) : (s.onCore c f).job = s.job := rfl
@[simp] theorem State.onCore_rx (s : State) (c : Nat) (f : Core → Core) : (s.onCore c f).rx = s.rx := rfl
@[simp] theorem State.onCore_decoders (s : State) (c : Nat) (f : Core → Core) : (s.onCore c f).decoders = s.decoders := rfl
@[simp] theorem State.onCore_soft (s : State) (c : Nat) (f : Core → Core) : (s.onCore c f).soft = s.soft := rfl
@[simp] theorem State.onCore_sessions (s : State) (c : Nat) (f : Core → Core) : (s.onCore c f).sessions = s.sessions := rfl
@[simp] theorem State.onCore_downlink (s : State) (c : Nat) (f : Core → Core) : (s.onCore c f).downlink = s.downlink := rfl
@[simp] theorem State.onCore_image (s : State) (c : Nat) (f : Core → Core) : (s.onCore c f).image = s.image := rfl
@[simp] theorem State.onCore_adapt (s : State) (c : Nat) (f : Core → Core) : (s.onCore c f).adapt = s.adapt := rfl
@[simp] theorem State.onCore_cores (s : State) (c : Nat) (f : Core → Core) : (s.onCore c f).cores = mapSet coreDefault c (f (s.core c)) s.cores := rfl
@[simp] theorem State.onCore_comp (s : State) (c : Nat) (f : Core → Core) : (s.onCore c f).comp = s.comp := rfl
@[simp] theorem State.onCore_net (s : State) (c : Nat) (f : Core → Core) : (s.onCore c f).net = s.net := rfl

/-! ### onSu -/

@[simp] theorem State.onSu_pending (s : State) (c : Nat) (f : SignalUnit → SignalUnit) : (s.onSu c f).pending = s.pending := rfl
@[simp] theorem State.onSu_sys (s : State) (c : Nat) (f : SignalUnit → SignalUnit) : (s.onSu c f).sys = s.sys := rfl
@[simp] theorem State.onSu_heron (s : State) (c : Nat) (f : SignalUnit → SignalUnit) : (s.onSu c f).heron = s.heron := rfl
@[simp] theorem State.onSu_power (s : State) (c : Nat) (f : SignalUnit → SignalUnit) : (s.onSu c f).power = s.power := rfl
@[simp] theorem State.onSu_storage (s : State) (c : Nat) (f : SignalUnit → SignalUnit) : (s.onSu c f).storage = s.storage := rfl
@[simp] theorem State.onSu_sluice (s : State) (c : Nat) (f : SignalUnit → SignalUnit) : (s.onSu c f).sluice = s.sluice := rfl
@[simp] theorem State.onSu_time (s : State) (c : Nat) (f : SignalUnit → SignalUnit) : (s.onSu c f).time = s.time := rfl
@[simp] theorem State.onSu_pins (s : State) (c : Nat) (f : SignalUnit → SignalUnit) : (s.onSu c f).pins = s.pins := rfl
@[simp] theorem State.onSu_jtag (s : State) (c : Nat) (f : SignalUnit → SignalUnit) : (s.onSu c f).jtag = s.jtag := rfl
@[simp] theorem State.onSu_job (s : State) (c : Nat) (f : SignalUnit → SignalUnit) : (s.onSu c f).job = s.job := rfl
@[simp] theorem State.onSu_rx (s : State) (c : Nat) (f : SignalUnit → SignalUnit) : (s.onSu c f).rx = s.rx := rfl
@[simp] theorem State.onSu_decoders (s : State) (c : Nat) (f : SignalUnit → SignalUnit) : (s.onSu c f).decoders = s.decoders := rfl
@[simp] theorem State.onSu_soft (s : State) (c : Nat) (f : SignalUnit → SignalUnit) : (s.onSu c f).soft = s.soft := rfl
@[simp] theorem State.onSu_sessions (s : State) (c : Nat) (f : SignalUnit → SignalUnit) : (s.onSu c f).sessions = s.sessions := rfl
@[simp] theorem State.onSu_downlink (s : State) (c : Nat) (f : SignalUnit → SignalUnit) : (s.onSu c f).downlink = s.downlink := rfl
@[simp] theorem State.onSu_image (s : State) (c : Nat) (f : SignalUnit → SignalUnit) : (s.onSu c f).image = s.image := rfl
@[simp] theorem State.onSu_adapt (s : State) (c : Nat) (f : SignalUnit → SignalUnit) : (s.onSu c f).adapt = s.adapt := rfl
@[simp] theorem State.onSu_comp (s : State) (c : Nat) (f : SignalUnit → SignalUnit) : (s.onSu c f).comp = s.comp := rfl
@[simp] theorem State.onSu_net (s : State) (c : Nat) (f : SignalUnit → SignalUnit) : (s.onSu c f).net = s.net := rfl

/-! ### setDecoder -/

@[simp] theorem State.setDecoder_pending (s : State) (g : Nat) (d : Decoder) : (s.setDecoder g d).pending = s.pending := rfl
@[simp] theorem State.setDecoder_sys (s : State) (g : Nat) (d : Decoder) : (s.setDecoder g d).sys = s.sys := rfl
@[simp] theorem State.setDecoder_heron (s : State) (g : Nat) (d : Decoder) : (s.setDecoder g d).heron = s.heron := rfl
@[simp] theorem State.setDecoder_power (s : State) (g : Nat) (d : Decoder) : (s.setDecoder g d).power = s.power := rfl
@[simp] theorem State.setDecoder_storage (s : State) (g : Nat) (d : Decoder) : (s.setDecoder g d).storage = s.storage := rfl
@[simp] theorem State.setDecoder_sluice (s : State) (g : Nat) (d : Decoder) : (s.setDecoder g d).sluice = s.sluice := rfl
@[simp] theorem State.setDecoder_time (s : State) (g : Nat) (d : Decoder) : (s.setDecoder g d).time = s.time := rfl
@[simp] theorem State.setDecoder_pins (s : State) (g : Nat) (d : Decoder) : (s.setDecoder g d).pins = s.pins := rfl
@[simp] theorem State.setDecoder_jtag (s : State) (g : Nat) (d : Decoder) : (s.setDecoder g d).jtag = s.jtag := rfl
@[simp] theorem State.setDecoder_job (s : State) (g : Nat) (d : Decoder) : (s.setDecoder g d).job = s.job := rfl
@[simp] theorem State.setDecoder_rx (s : State) (g : Nat) (d : Decoder) : (s.setDecoder g d).rx = s.rx := rfl
@[simp] theorem State.setDecoder_decoders (s : State) (g : Nat) (d : Decoder) : (s.setDecoder g d).decoders = mapSet decoderDefault g d s.decoders := rfl
@[simp] theorem State.setDecoder_soft (s : State) (g : Nat) (d : Decoder) : (s.setDecoder g d).soft = s.soft := rfl
@[simp] theorem State.setDecoder_sessions (s : State) (g : Nat) (d : Decoder) : (s.setDecoder g d).sessions = s.sessions := rfl
@[simp] theorem State.setDecoder_downlink (s : State) (g : Nat) (d : Decoder) : (s.setDecoder g d).downlink = s.downlink := rfl
@[simp] theorem State.setDecoder_image (s : State) (g : Nat) (d : Decoder) : (s.setDecoder g d).image = s.image := rfl
@[simp] theorem State.setDecoder_adapt (s : State) (g : Nat) (d : Decoder) : (s.setDecoder g d).adapt = s.adapt := rfl
@[simp] theorem State.setDecoder_cores (s : State) (g : Nat) (d : Decoder) : (s.setDecoder g d).cores = s.cores := rfl
@[simp] theorem State.setDecoder_comp (s : State) (g : Nat) (d : Decoder) : (s.setDecoder g d).comp = s.comp := rfl
@[simp] theorem State.setDecoder_net (s : State) (g : Nat) (d : Decoder) : (s.setDecoder g d).net = s.net := rfl

/-! ### setBurst -/

@[simp] theorem State.setBurst_pending (s : State) (b : Burst) : (s.setBurst b).pending = s.pending := rfl
@[simp] theorem State.setBurst_sys (s : State) (b : Burst) : (s.setBurst b).sys = s.sys := rfl
@[simp] theorem State.setBurst_heron (s : State) (b : Burst) : (s.setBurst b).heron = s.heron := rfl
@[simp] theorem State.setBurst_power (s : State) (b : Burst) : (s.setBurst b).power = s.power := rfl
@[simp] theorem State.setBurst_storage (s : State) (b : Burst) : (s.setBurst b).storage = s.storage := rfl
@[simp] theorem State.setBurst_sluice (s : State) (b : Burst) : (s.setBurst b).sluice = s.sluice := rfl
@[simp] theorem State.setBurst_time (s : State) (b : Burst) : (s.setBurst b).time = s.time := rfl
@[simp] theorem State.setBurst_pins (s : State) (b : Burst) : (s.setBurst b).pins = s.pins := rfl
@[simp] theorem State.setBurst_jtag (s : State) (b : Burst) : (s.setBurst b).jtag = s.jtag := rfl
@[simp] theorem State.setBurst_job (s : State) (b : Burst) : (s.setBurst b).job = s.job := rfl
@[simp] theorem State.setBurst_decoders (s : State) (b : Burst) : (s.setBurst b).decoders = s.decoders := rfl
@[simp] theorem State.setBurst_soft (s : State) (b : Burst) : (s.setBurst b).soft = s.soft := rfl
@[simp] theorem State.setBurst_sessions (s : State) (b : Burst) : (s.setBurst b).sessions = s.sessions := rfl
@[simp] theorem State.setBurst_downlink (s : State) (b : Burst) : (s.setBurst b).downlink = s.downlink := rfl
@[simp] theorem State.setBurst_image (s : State) (b : Burst) : (s.setBurst b).image = s.image := rfl
@[simp] theorem State.setBurst_adapt (s : State) (b : Burst) : (s.setBurst b).adapt = s.adapt := rfl
@[simp] theorem State.setBurst_cores (s : State) (b : Burst) : (s.setBurst b).cores = s.cores := rfl
@[simp] theorem State.setBurst_comp (s : State) (b : Burst) : (s.setBurst b).comp = s.comp := rfl
@[simp] theorem State.setBurst_net (s : State) (b : Burst) : (s.setBurst b).net = s.net := rfl

/-! ### setHeadGroup -/

@[simp] theorem State.setHeadGroup_pending (s : State) (k : Nat) (g : HeadGroup) : (s.setHeadGroup k g).pending = s.pending := rfl
@[simp] theorem State.setHeadGroup_sys (s : State) (k : Nat) (g : HeadGroup) : (s.setHeadGroup k g).sys = s.sys := rfl
@[simp] theorem State.setHeadGroup_heron (s : State) (k : Nat) (g : HeadGroup) : (s.setHeadGroup k g).heron = s.heron := rfl
@[simp] theorem State.setHeadGroup_power (s : State) (k : Nat) (g : HeadGroup) : (s.setHeadGroup k g).power = s.power := rfl
@[simp] theorem State.setHeadGroup_storage (s : State) (k : Nat) (g : HeadGroup) : (s.setHeadGroup k g).storage = s.storage := rfl
@[simp] theorem State.setHeadGroup_sluice (s : State) (k : Nat) (g : HeadGroup) : (s.setHeadGroup k g).sluice = s.sluice := rfl
@[simp] theorem State.setHeadGroup_time (s : State) (k : Nat) (g : HeadGroup) : (s.setHeadGroup k g).time = s.time := rfl
@[simp] theorem State.setHeadGroup_pins (s : State) (k : Nat) (g : HeadGroup) : (s.setHeadGroup k g).pins = s.pins := rfl
@[simp] theorem State.setHeadGroup_jtag (s : State) (k : Nat) (g : HeadGroup) : (s.setHeadGroup k g).jtag = s.jtag := rfl
@[simp] theorem State.setHeadGroup_job (s : State) (k : Nat) (g : HeadGroup) : (s.setHeadGroup k g).job = s.job := rfl
@[simp] theorem State.setHeadGroup_rx (s : State) (k : Nat) (g : HeadGroup) : (s.setHeadGroup k g).rx = s.rx := rfl
@[simp] theorem State.setHeadGroup_decoders (s : State) (k : Nat) (g : HeadGroup) : (s.setHeadGroup k g).decoders = s.decoders := rfl
@[simp] theorem State.setHeadGroup_soft (s : State) (k : Nat) (g : HeadGroup) : (s.setHeadGroup k g).soft = s.soft := rfl
@[simp] theorem State.setHeadGroup_sessions (s : State) (k : Nat) (g : HeadGroup) : (s.setHeadGroup k g).sessions = s.sessions := rfl
@[simp] theorem State.setHeadGroup_downlink (s : State) (k : Nat) (g : HeadGroup) : (s.setHeadGroup k g).downlink = s.downlink := rfl
@[simp] theorem State.setHeadGroup_image (s : State) (k : Nat) (g : HeadGroup) : (s.setHeadGroup k g).image = s.image := rfl
@[simp] theorem State.setHeadGroup_cores (s : State) (k : Nat) (g : HeadGroup) : (s.setHeadGroup k g).cores = s.cores := rfl
@[simp] theorem State.setHeadGroup_comp (s : State) (k : Nat) (g : HeadGroup) : (s.setHeadGroup k g).comp = s.comp := rfl
@[simp] theorem State.setHeadGroup_net (s : State) (k : Nat) (g : HeadGroup) : (s.setHeadGroup k g).net = s.net := rfl

/-! ### Sys.setReg -/

@[simp] theorem Sys.setReg_air (y : Sys) (off v : Nat) : (y.setReg off v).air = y.air := rfl
@[simp] theorem Sys.setReg_copies (y : Sys) (off v : Nat) : (y.setReg off v).copies = y.copies := rfl
@[simp] theorem Sys.setReg_mem (y : Sys) (off v : Nat) : (y.setReg off v).mem = y.mem := rfl
@[simp] theorem Sys.setReg_poison (y : Sys) (off v : Nat) : (y.setReg off v).poison = y.poison := rfl
@[simp] theorem Sys.setReg_granuleState (y : Sys) (off v : Nat) : (y.setReg off v).granuleState = y.granuleState := rfl
@[simp] theorem Sys.setReg_valid (y : Sys) (off v : Nat) : (y.setReg off v).valid = y.valid := rfl
@[simp] theorem Sys.setReg_counters (y : Sys) (off v : Nat) : (y.setReg off v).counters = y.counters := rfl
@[simp] theorem Sys.setReg_unfolded (y : Sys) (off v : Nat) : (y.setReg off v).unfolded = y.unfolded := rfl
@[simp] theorem Sys.setReg_satTotal (y : Sys) (off v : Nat) : (y.setReg off v).satTotal = y.satTotal := rfl
@[simp] theorem Sys.setReg_unfTotal (y : Sys) (off v : Nat) : (y.setReg off v).unfTotal = y.unfTotal := rfl
@[simp] theorem Sys.setReg_anyFault (y : Sys) (off v : Nat) : (y.setReg off v).anyFault = y.anyFault := rfl
@[simp] theorem Sys.setReg_logKept (y : Sys) (off v : Nat) : (y.setReg off v).logKept = y.logKept := rfl
@[simp] theorem Sys.setReg_logRing (y : Sys) (off v : Nat) : (y.setReg off v).logRing = y.logRing := rfl
@[simp] theorem Sys.setReg_rings (y : Sys) (off v : Nat) : (y.setReg off v).rings = y.rings := rfl
@[simp] theorem Sys.setReg_held (y : Sys) (off v : Nat) : (y.setReg off v).held = y.held := rfl
@[simp] theorem Sys.setReg_dropped (y : Sys) (off v : Nat) : (y.setReg off v).dropped = y.dropped := rfl
@[simp] theorem Sys.setReg_dropFirst (y : Sys) (off v : Nat) : (y.setReg off v).dropFirst = y.dropFirst := rfl
@[simp] theorem Sys.setReg_msixTable (y : Sys) (off v : Nat) : (y.setReg off v).msixTable = y.msixTable := rfl
@[simp] theorem Sys.setReg_msixPending (y : Sys) (off v : Nat) : (y.setReg off v).msixPending = y.msixPending := rfl
@[simp] theorem Sys.setReg_fences (y : Sys) (off v : Nat) : (y.setReg off v).fences = y.fences := rfl
@[simp] theorem Sys.setReg_trace (y : Sys) (off v : Nat) : (y.setReg off v).trace = y.trace := rfl
@[simp] theorem Sys.setReg_jobFault (y : Sys) (off v : Nat) : (y.setReg off v).jobFault = y.jobFault := rfl
@[simp] theorem Sys.setReg_weightRanges (y : Sys) (off v : Nat) : (y.setReg off v).weightRanges = y.weightRanges := rfl
@[simp] theorem Sys.setReg_weightPoison (y : Sys) (off v : Nat) : (y.setReg off v).weightPoison = y.weightPoison := rfl
@[simp] theorem Sys.setReg_headCache (y : Sys) (off v : Nat) : (y.setReg off v).headCache = y.headCache := rfl
@[simp] theorem Sys.setReg_sent (y : Sys) (off v : Nat) : (y.setReg off v).sent = y.sent := rfl
@[simp] theorem Sys.setReg_seed (y : Sys) (off v : Nat) : (y.setReg off v).seed = y.seed := rfl

/-! ### Sys.setRing -/

@[simp] theorem Sys.setRing_air (y : Sys) (r : Nat) (h : HostRing) : (y.setRing r h).air = y.air := rfl
@[simp] theorem Sys.setRing_copies (y : Sys) (r : Nat) (h : HostRing) : (y.setRing r h).copies = y.copies := rfl
@[simp] theorem Sys.setRing_mem (y : Sys) (r : Nat) (h : HostRing) : (y.setRing r h).mem = y.mem := rfl
@[simp] theorem Sys.setRing_poison (y : Sys) (r : Nat) (h : HostRing) : (y.setRing r h).poison = y.poison := rfl
@[simp] theorem Sys.setRing_granuleState (y : Sys) (r : Nat) (h : HostRing) : (y.setRing r h).granuleState = y.granuleState := rfl
@[simp] theorem Sys.setRing_valid (y : Sys) (r : Nat) (h : HostRing) : (y.setRing r h).valid = y.valid := rfl
@[simp] theorem Sys.setRing_counters (y : Sys) (r : Nat) (h : HostRing) : (y.setRing r h).counters = y.counters := rfl
@[simp] theorem Sys.setRing_unfolded (y : Sys) (r : Nat) (h : HostRing) : (y.setRing r h).unfolded = y.unfolded := rfl
@[simp] theorem Sys.setRing_satTotal (y : Sys) (r : Nat) (h : HostRing) : (y.setRing r h).satTotal = y.satTotal := rfl
@[simp] theorem Sys.setRing_unfTotal (y : Sys) (r : Nat) (h : HostRing) : (y.setRing r h).unfTotal = y.unfTotal := rfl
@[simp] theorem Sys.setRing_anyFault (y : Sys) (r : Nat) (h : HostRing) : (y.setRing r h).anyFault = y.anyFault := rfl
@[simp] theorem Sys.setRing_logKept (y : Sys) (r : Nat) (h : HostRing) : (y.setRing r h).logKept = y.logKept := rfl
@[simp] theorem Sys.setRing_logRing (y : Sys) (r : Nat) (h : HostRing) : (y.setRing r h).logRing = y.logRing := rfl
@[simp] theorem Sys.setRing_held (y : Sys) (r : Nat) (h : HostRing) : (y.setRing r h).held = y.held := rfl
@[simp] theorem Sys.setRing_dropped (y : Sys) (r : Nat) (h : HostRing) : (y.setRing r h).dropped = y.dropped := rfl
@[simp] theorem Sys.setRing_dropFirst (y : Sys) (r : Nat) (h : HostRing) : (y.setRing r h).dropFirst = y.dropFirst := rfl
@[simp] theorem Sys.setRing_msixTable (y : Sys) (r : Nat) (h : HostRing) : (y.setRing r h).msixTable = y.msixTable := rfl
@[simp] theorem Sys.setRing_msixPending (y : Sys) (r : Nat) (h : HostRing) : (y.setRing r h).msixPending = y.msixPending := rfl
@[simp] theorem Sys.setRing_regs (y : Sys) (r : Nat) (h : HostRing) : (y.setRing r h).regs = y.regs := rfl
@[simp] theorem Sys.setRing_fences (y : Sys) (r : Nat) (h : HostRing) : (y.setRing r h).fences = y.fences := rfl
@[simp] theorem Sys.setRing_trace (y : Sys) (r : Nat) (h : HostRing) : (y.setRing r h).trace = y.trace := rfl
@[simp] theorem Sys.setRing_jobFault (y : Sys) (r : Nat) (h : HostRing) : (y.setRing r h).jobFault = y.jobFault := rfl
@[simp] theorem Sys.setRing_weightRanges (y : Sys) (r : Nat) (h : HostRing) : (y.setRing r h).weightRanges = y.weightRanges := rfl
@[simp] theorem Sys.setRing_weightPoison (y : Sys) (r : Nat) (h : HostRing) : (y.setRing r h).weightPoison = y.weightPoison := rfl
@[simp] theorem Sys.setRing_headCache (y : Sys) (r : Nat) (h : HostRing) : (y.setRing r h).headCache = y.headCache := rfl
@[simp] theorem Sys.setRing_sent (y : Sys) (r : Nat) (h : HostRing) : (y.setRing r h).sent = y.sent := rfl
@[simp] theorem Sys.setRing_seed (y : Sys) (r : Nat) (h : HostRing) : (y.setRing r h).seed = y.seed := rfl

/-! ### Sys.poke -/

@[simp] theorem Sys.poke_air (y : Sys) (a : Nat) (b : Byte) : (y.poke a b).air = y.air := rfl
@[simp] theorem Sys.poke_copies (y : Sys) (a : Nat) (b : Byte) : (y.poke a b).copies = y.copies := rfl
@[simp] theorem Sys.poke_poison (y : Sys) (a : Nat) (b : Byte) : (y.poke a b).poison = y.poison := rfl
@[simp] theorem Sys.poke_granuleState (y : Sys) (a : Nat) (b : Byte) : (y.poke a b).granuleState = y.granuleState := rfl
@[simp] theorem Sys.poke_valid (y : Sys) (a : Nat) (b : Byte) : (y.poke a b).valid = y.valid := rfl
@[simp] theorem Sys.poke_counters (y : Sys) (a : Nat) (b : Byte) : (y.poke a b).counters = y.counters := rfl
@[simp] theorem Sys.poke_unfolded (y : Sys) (a : Nat) (b : Byte) : (y.poke a b).unfolded = y.unfolded := rfl
@[simp] theorem Sys.poke_satTotal (y : Sys) (a : Nat) (b : Byte) : (y.poke a b).satTotal = y.satTotal := rfl
@[simp] theorem Sys.poke_unfTotal (y : Sys) (a : Nat) (b : Byte) : (y.poke a b).unfTotal = y.unfTotal := rfl
@[simp] theorem Sys.poke_anyFault (y : Sys) (a : Nat) (b : Byte) : (y.poke a b).anyFault = y.anyFault := rfl
@[simp] theorem Sys.poke_logKept (y : Sys) (a : Nat) (b : Byte) : (y.poke a b).logKept = y.logKept := rfl
@[simp] theorem Sys.poke_logRing (y : Sys) (a : Nat) (b : Byte) : (y.poke a b).logRing = y.logRing := rfl
@[simp] theorem Sys.poke_rings (y : Sys) (a : Nat) (b : Byte) : (y.poke a b).rings = y.rings := rfl
@[simp] theorem Sys.poke_held (y : Sys) (a : Nat) (b : Byte) : (y.poke a b).held = y.held := rfl
@[simp] theorem Sys.poke_dropped (y : Sys) (a : Nat) (b : Byte) : (y.poke a b).dropped = y.dropped := rfl
@[simp] theorem Sys.poke_dropFirst (y : Sys) (a : Nat) (b : Byte) : (y.poke a b).dropFirst = y.dropFirst := rfl
@[simp] theorem Sys.poke_msixTable (y : Sys) (a : Nat) (b : Byte) : (y.poke a b).msixTable = y.msixTable := rfl
@[simp] theorem Sys.poke_msixPending (y : Sys) (a : Nat) (b : Byte) : (y.poke a b).msixPending = y.msixPending := rfl
@[simp] theorem Sys.poke_regs (y : Sys) (a : Nat) (b : Byte) : (y.poke a b).regs = y.regs := rfl
@[simp] theorem Sys.poke_fences (y : Sys) (a : Nat) (b : Byte) : (y.poke a b).fences = y.fences := rfl
@[simp] theorem Sys.poke_trace (y : Sys) (a : Nat) (b : Byte) : (y.poke a b).trace = y.trace := rfl
@[simp] theorem Sys.poke_jobFault (y : Sys) (a : Nat) (b : Byte) : (y.poke a b).jobFault = y.jobFault := rfl
@[simp] theorem Sys.poke_weightRanges (y : Sys) (a : Nat) (b : Byte) : (y.poke a b).weightRanges = y.weightRanges := rfl
@[simp] theorem Sys.poke_weightPoison (y : Sys) (a : Nat) (b : Byte) : (y.poke a b).weightPoison = y.weightPoison := rfl
@[simp] theorem Sys.poke_headCache (y : Sys) (a : Nat) (b : Byte) : (y.poke a b).headCache = y.headCache := rfl
@[simp] theorem Sys.poke_sent (y : Sys) (a : Nat) (b : Byte) : (y.poke a b).sent = y.sent := rfl
@[simp] theorem Sys.poke_seed (y : Sys) (a : Nat) (b : Byte) : (y.poke a b).seed = y.seed := rfl

/-! ### Sys.countN -/

@[simp] theorem Sys.countN_air (y : Sys) (c n : Nat) : (y.countN c n).air = y.air := rfl
@[simp] theorem Sys.countN_copies (y : Sys) (c n : Nat) : (y.countN c n).copies = y.copies := rfl
@[simp] theorem Sys.countN_mem (y : Sys) (c n : Nat) : (y.countN c n).mem = y.mem := rfl
@[simp] theorem Sys.countN_poison (y : Sys) (c n : Nat) : (y.countN c n).poison = y.poison := rfl
@[simp] theorem Sys.countN_granuleState (y : Sys) (c n : Nat) : (y.countN c n).granuleState = y.granuleState := rfl
@[simp] theorem Sys.countN_valid (y : Sys) (c n : Nat) : (y.countN c n).valid = y.valid := rfl
@[simp] theorem Sys.countN_unfolded (y : Sys) (c n : Nat) : (y.countN c n).unfolded = y.unfolded := rfl
@[simp] theorem Sys.countN_satTotal (y : Sys) (c n : Nat) : (y.countN c n).satTotal = y.satTotal := rfl
@[simp] theorem Sys.countN_unfTotal (y : Sys) (c n : Nat) : (y.countN c n).unfTotal = y.unfTotal := rfl
@[simp] theorem Sys.countN_anyFault (y : Sys) (c n : Nat) : (y.countN c n).anyFault = y.anyFault := rfl
@[simp] theorem Sys.countN_logKept (y : Sys) (c n : Nat) : (y.countN c n).logKept = y.logKept := rfl
@[simp] theorem Sys.countN_logRing (y : Sys) (c n : Nat) : (y.countN c n).logRing = y.logRing := rfl
@[simp] theorem Sys.countN_rings (y : Sys) (c n : Nat) : (y.countN c n).rings = y.rings := rfl
@[simp] theorem Sys.countN_held (y : Sys) (c n : Nat) : (y.countN c n).held = y.held := rfl
@[simp] theorem Sys.countN_dropped (y : Sys) (c n : Nat) : (y.countN c n).dropped = y.dropped := rfl
@[simp] theorem Sys.countN_dropFirst (y : Sys) (c n : Nat) : (y.countN c n).dropFirst = y.dropFirst := rfl
@[simp] theorem Sys.countN_msixTable (y : Sys) (c n : Nat) : (y.countN c n).msixTable = y.msixTable := rfl
@[simp] theorem Sys.countN_msixPending (y : Sys) (c n : Nat) : (y.countN c n).msixPending = y.msixPending := rfl
@[simp] theorem Sys.countN_regs (y : Sys) (c n : Nat) : (y.countN c n).regs = y.regs := rfl
@[simp] theorem Sys.countN_fences (y : Sys) (c n : Nat) : (y.countN c n).fences = y.fences := rfl
@[simp] theorem Sys.countN_trace (y : Sys) (c n : Nat) : (y.countN c n).trace = y.trace := rfl
@[simp] theorem Sys.countN_jobFault (y : Sys) (c n : Nat) : (y.countN c n).jobFault = y.jobFault := rfl
@[simp] theorem Sys.countN_weightRanges (y : Sys) (c n : Nat) : (y.countN c n).weightRanges = y.weightRanges := rfl
@[simp] theorem Sys.countN_weightPoison (y : Sys) (c n : Nat) : (y.countN c n).weightPoison = y.weightPoison := rfl
@[simp] theorem Sys.countN_headCache (y : Sys) (c n : Nat) : (y.countN c n).headCache = y.headCache := rfl
@[simp] theorem Sys.countN_sent (y : Sys) (c n : Nat) : (y.countN c n).sent = y.sent := rfl
@[simp] theorem Sys.countN_seed (y : Sys) (c n : Nat) : (y.countN c n).seed = y.seed := rfl

/-! ### Sys.count -/

@[simp] theorem Sys.count_air (y : Sys) (c : Nat) : (y.count c).air = y.air := rfl
@[simp] theorem Sys.count_copies (y : Sys) (c : Nat) : (y.count c).copies = y.copies := rfl
@[simp] theorem Sys.count_mem (y : Sys) (c : Nat) : (y.count c).mem = y.mem := rfl
@[simp] theorem Sys.count_poison (y : Sys) (c : Nat) : (y.count c).poison = y.poison := rfl
@[simp] theorem Sys.count_granuleState (y : Sys) (c : Nat) : (y.count c).granuleState = y.granuleState := rfl
@[simp] theorem Sys.count_valid (y : Sys) (c : Nat) : (y.count c).valid = y.valid := rfl
@[simp] theorem Sys.count_unfolded (y : Sys) (c : Nat) : (y.count c).unfolded = y.unfolded := rfl
@[simp] theorem Sys.count_satTotal (y : Sys) (c : Nat) : (y.count c).satTotal = y.satTotal := rfl
@[simp] theorem Sys.count_unfTotal (y : Sys) (c : Nat) : (y.count c).unfTotal = y.unfTotal := rfl
@[simp] theorem Sys.count_anyFault (y : Sys) (c : Nat) : (y.count c).anyFault = y.anyFault := rfl
@[simp] theorem Sys.count_logKept (y : Sys) (c : Nat) : (y.count c).logKept = y.logKept := rfl
@[simp] theorem Sys.count_logRing (y : Sys) (c : Nat) : (y.count c).logRing = y.logRing := rfl
@[simp] theorem Sys.count_rings (y : Sys) (c : Nat) : (y.count c).rings = y.rings := rfl
@[simp] theorem Sys.count_held (y : Sys) (c : Nat) : (y.count c).held = y.held := rfl
@[simp] theorem Sys.count_dropped (y : Sys) (c : Nat) : (y.count c).dropped = y.dropped := rfl
@[simp] theorem Sys.count_dropFirst (y : Sys) (c : Nat) : (y.count c).dropFirst = y.dropFirst := rfl
@[simp] theorem Sys.count_msixTable (y : Sys) (c : Nat) : (y.count c).msixTable = y.msixTable := rfl
@[simp] theorem Sys.count_msixPending (y : Sys) (c : Nat) : (y.count c).msixPending = y.msixPending := rfl
@[simp] theorem Sys.count_regs (y : Sys) (c : Nat) : (y.count c).regs = y.regs := rfl
@[simp] theorem Sys.count_fences (y : Sys) (c : Nat) : (y.count c).fences = y.fences := rfl
@[simp] theorem Sys.count_trace (y : Sys) (c : Nat) : (y.count c).trace = y.trace := rfl
@[simp] theorem Sys.count_jobFault (y : Sys) (c : Nat) : (y.count c).jobFault = y.jobFault := rfl
@[simp] theorem Sys.count_weightRanges (y : Sys) (c : Nat) : (y.count c).weightRanges = y.weightRanges := rfl
@[simp] theorem Sys.count_weightPoison (y : Sys) (c : Nat) : (y.count c).weightPoison = y.weightPoison := rfl
@[simp] theorem Sys.count_headCache (y : Sys) (c : Nat) : (y.count c).headCache = y.headCache := rfl
@[simp] theorem Sys.count_sent (y : Sys) (c : Nat) : (y.count c).sent = y.sent := rfl
@[simp] theorem Sys.count_seed (y : Sys) (c : Nat) : (y.count c).seed = y.seed := rfl

/-! ### Sys.countLocal -/

@[simp] theorem Sys.countLocal_air (y : Sys) (c n : Nat) : (y.countLocal c n).air = y.air := rfl
@[simp] theorem Sys.countLocal_copies (y : Sys) (c n : Nat) : (y.countLocal c n).copies = y.copies := rfl
@[simp] theorem Sys.countLocal_mem (y : Sys) (c n : Nat) : (y.countLocal c n).mem = y.mem := rfl
@[simp] theorem Sys.countLocal_poison (y : Sys) (c n : Nat) : (y.countLocal c n).poison = y.poison := rfl
@[simp] theorem Sys.countLocal_granuleState (y : Sys) (c n : Nat) : (y.countLocal c n).granuleState = y.granuleState := rfl
@[simp] theorem Sys.countLocal_valid (y : Sys) (c n : Nat) : (y.countLocal c n).valid = y.valid := rfl
@[simp] theorem Sys.countLocal_counters (y : Sys) (c n : Nat) : (y.countLocal c n).counters = y.counters := rfl
@[simp] theorem Sys.countLocal_satTotal (y : Sys) (c n : Nat) : (y.countLocal c n).satTotal = y.satTotal := rfl
@[simp] theorem Sys.countLocal_unfTotal (y : Sys) (c n : Nat) : (y.countLocal c n).unfTotal = y.unfTotal := rfl
@[simp] theorem Sys.countLocal_anyFault (y : Sys) (c n : Nat) : (y.countLocal c n).anyFault = y.anyFault := rfl
@[simp] theorem Sys.countLocal_logKept (y : Sys) (c n : Nat) : (y.countLocal c n).logKept = y.logKept := rfl
@[simp] theorem Sys.countLocal_logRing (y : Sys) (c n : Nat) : (y.countLocal c n).logRing = y.logRing := rfl
@[simp] theorem Sys.countLocal_rings (y : Sys) (c n : Nat) : (y.countLocal c n).rings = y.rings := rfl
@[simp] theorem Sys.countLocal_held (y : Sys) (c n : Nat) : (y.countLocal c n).held = y.held := rfl
@[simp] theorem Sys.countLocal_dropped (y : Sys) (c n : Nat) : (y.countLocal c n).dropped = y.dropped := rfl
@[simp] theorem Sys.countLocal_dropFirst (y : Sys) (c n : Nat) : (y.countLocal c n).dropFirst = y.dropFirst := rfl
@[simp] theorem Sys.countLocal_msixTable (y : Sys) (c n : Nat) : (y.countLocal c n).msixTable = y.msixTable := rfl
@[simp] theorem Sys.countLocal_msixPending (y : Sys) (c n : Nat) : (y.countLocal c n).msixPending = y.msixPending := rfl
@[simp] theorem Sys.countLocal_regs (y : Sys) (c n : Nat) : (y.countLocal c n).regs = y.regs := rfl
@[simp] theorem Sys.countLocal_fences (y : Sys) (c n : Nat) : (y.countLocal c n).fences = y.fences := rfl
@[simp] theorem Sys.countLocal_trace (y : Sys) (c n : Nat) : (y.countLocal c n).trace = y.trace := rfl
@[simp] theorem Sys.countLocal_jobFault (y : Sys) (c n : Nat) : (y.countLocal c n).jobFault = y.jobFault := rfl
@[simp] theorem Sys.countLocal_weightRanges (y : Sys) (c n : Nat) : (y.countLocal c n).weightRanges = y.weightRanges := rfl
@[simp] theorem Sys.countLocal_weightPoison (y : Sys) (c n : Nat) : (y.countLocal c n).weightPoison = y.weightPoison := rfl
@[simp] theorem Sys.countLocal_headCache (y : Sys) (c n : Nat) : (y.countLocal c n).headCache = y.headCache := rfl
@[simp] theorem Sys.countLocal_sent (y : Sys) (c n : Nat) : (y.countLocal c n).sent = y.sent := rfl
@[simp] theorem Sys.countLocal_seed (y : Sys) (c n : Nat) : (y.countLocal c n).seed = y.seed := rfl

/-! ### Registers, rings and counters read back -/

theorem Sys.regStored_setReg (y : Sys) (off v : Nat) : (y.setReg off v).regStored off = v := mapGet_mapSet_self
theorem Sys.tmrWord_setReg (y : Sys) (off v : Nat) : (y.setReg off v).tmrWord off = ({} : TmrWord) := by
  show mapGet tmrDefault off (mapSet tmrDefault off ({} : TmrWord) y.regs.tmr) = _
  exact mapGet_mapSet_self

/-- A register reads what was last written to it: all three copies hold it. -/
@[simp] theorem Sys.reg_setReg (y : Sys) (off v : Nat) : (y.setReg off v).reg off = v := by
  simp [Sys.reg, Sys.regStored_setReg, Sys.tmrWord_setReg, TmrWord.read]

/-- Another register reads as before. -/
theorem Sys.reg_setReg_ne (y : Sys) (v : Nat) {off j : Nat} (h : j ≠ off) : (y.setReg off v).reg j = y.reg j := by
  simp [Sys.reg, Sys.regStored, Sys.tmrWord, Sys.setReg, mapGet_mapSet_ne h]

@[simp] theorem Sys.ring_setRing (y : Sys) (r : Nat) (h : HostRing) : (y.setRing r h).ring r = h := mapGet_mapSet_self
theorem Sys.ring_setRing_ne (y : Sys) {r j : Nat} (h : HostRing) (hj : j ≠ r) : (y.setRing r h).ring j = y.ring j := mapGet_mapSet_ne hj

@[simp] theorem State.core_setCore (s : State) (c : Nat) (k : Core) : (s.setCore c k).core c = k := mapGet_mapSet_self
theorem State.core_setCore_ne (s : State) {c j : Nat} (k : Core) (h : j ≠ c) : (s.setCore c k).core j = s.core j := mapGet_mapSet_ne h
@[simp] theorem State.core_onCore (s : State) (c : Nat) (f : Core → Core) : (s.onCore c f).core c = f (s.core c) := mapGet_mapSet_self
theorem State.core_onCore_ne (s : State) {c j : Nat} (f : Core → Core) (h : j ≠ c) : (s.onCore c f).core j = s.core j := mapGet_mapSet_ne h
@[simp] theorem State.core_onSys (s : State) (c : Nat) (f : Sys → Sys) : (s.onSys f).core c = s.core c := rfl

/-- A class counter after `n` occurrences: it holds at its maximum. -/
theorem Sys.counter_countN (y : Sys) (c n : Nat) : natAt (y.countN c n).counters c = min counterMax (natAt y.counters c + n) := natAt_natPut_self
theorem Sys.counter_countN_ne (y : Sys) {c j : Nat} (n : Nat) (h : j ≠ c) : natAt (y.countN c n).counters j = natAt y.counters j :=
  natAt_natPut_ne h

/-! ### setHold -/

@[simp] theorem State.setHold_pending (s : State) (ch n : Nat) : (s.setHold ch n).pending = s.pending := rfl
@[simp] theorem State.setHold_sys (s : State) (ch n : Nat) : (s.setHold ch n).sys = s.sys := rfl
@[simp] theorem State.setHold_heron (s : State) (ch n : Nat) : (s.setHold ch n).heron = s.heron := rfl
@[simp] theorem State.setHold_power (s : State) (ch n : Nat) : (s.setHold ch n).power = s.power := rfl
@[simp] theorem State.setHold_storage (s : State) (ch n : Nat) : (s.setHold ch n).storage = s.storage := rfl
@[simp] theorem State.setHold_sluice (s : State) (ch n : Nat) : (s.setHold ch n).sluice = s.sluice := rfl
@[simp] theorem State.setHold_time (s : State) (ch n : Nat) : (s.setHold ch n).time = s.time := rfl
@[simp] theorem State.setHold_pins (s : State) (ch n : Nat) : (s.setHold ch n).pins = s.pins := rfl
@[simp] theorem State.setHold_jtag (s : State) (ch n : Nat) : (s.setHold ch n).jtag = s.jtag := rfl
@[simp] theorem State.setHold_job (s : State) (ch n : Nat) : (s.setHold ch n).job = s.job := rfl
@[simp] theorem State.setHold_decoders (s : State) (ch n : Nat) : (s.setHold ch n).decoders = s.decoders := rfl
@[simp] theorem State.setHold_soft (s : State) (ch n : Nat) : (s.setHold ch n).soft = s.soft := rfl
@[simp] theorem State.setHold_sessions (s : State) (ch n : Nat) : (s.setHold ch n).sessions = s.sessions := rfl
@[simp] theorem State.setHold_downlink (s : State) (ch n : Nat) : (s.setHold ch n).downlink = s.downlink := rfl
@[simp] theorem State.setHold_image (s : State) (ch n : Nat) : (s.setHold ch n).image = s.image := rfl
@[simp] theorem State.setHold_adapt (s : State) (ch n : Nat) : (s.setHold ch n).adapt = s.adapt := rfl
@[simp] theorem State.setHold_cores (s : State) (ch n : Nat) : (s.setHold ch n).cores = s.cores := rfl
@[simp] theorem State.setHold_comp (s : State) (ch n : Nat) : (s.setHold ch n).comp = s.comp := rfl
@[simp] theorem State.setHold_net (s : State) (ch n : Nat) : (s.setHold ch n).net = s.net := rfl

/-! ### withhold -/

@[simp] theorem State.withhold_pending (s : State) : s.withhold.pending = s.pending := rfl
@[simp] theorem State.withhold_sys (s : State) : s.withhold.sys = s.sys := rfl
@[simp] theorem State.withhold_heron (s : State) : s.withhold.heron = s.heron := rfl
@[simp] theorem State.withhold_power (s : State) : s.withhold.power = s.power := rfl
@[simp] theorem State.withhold_storage (s : State) : s.withhold.storage = s.storage := rfl
@[simp] theorem State.withhold_sluice (s : State) : s.withhold.sluice = s.sluice := rfl
@[simp] theorem State.withhold_time (s : State) : s.withhold.time = s.time := rfl
@[simp] theorem State.withhold_pins (s : State) : s.withhold.pins = s.pins := rfl
@[simp] theorem State.withhold_jtag (s : State) : s.withhold.jtag = s.jtag := rfl
@[simp] theorem State.withhold_rx (s : State) : s.withhold.rx = s.rx := rfl
@[simp] theorem State.withhold_decoders (s : State) : s.withhold.decoders = s.decoders := rfl
@[simp] theorem State.withhold_soft (s : State) : s.withhold.soft = s.soft := rfl
@[simp] theorem State.withhold_sessions (s : State) : s.withhold.sessions = s.sessions := rfl
@[simp] theorem State.withhold_downlink (s : State) : s.withhold.downlink = s.downlink := rfl
@[simp] theorem State.withhold_image (s : State) : s.withhold.image = s.image := rfl
@[simp] theorem State.withhold_adapt (s : State) : s.withhold.adapt = s.adapt := rfl
@[simp] theorem State.withhold_cores (s : State) : s.withhold.cores = s.cores := rfl
@[simp] theorem State.withhold_comp (s : State) : s.withhold.comp = s.comp := rfl
@[simp] theorem State.withhold_net (s : State) : s.withhold.net = s.net := rfl
@[simp] theorem State.withhold_withheld (s : State) : s.withhold.job.withheld = s.job.withheld + 1 := rfl

end Sys2Proof.Machine
end

