-- ==== Sys2Proof/Laws/Memory.lean ====
section
/-! SUPPORT. Memory: a read after a write, and the canonical form that every memory operation keeps. -/

namespace Sys2Proof.Machine

variable {y : Sys}

theorem Sys.peek_poke (y : Sys) (a j : Nat) (b : Byte) : (y.poke a b).peek j = if j = a then b else y.peek j := mapGet_mapSet

/-- What every address reads after a run of bytes is stored. -/
theorem Sys.peek_pokeN (bs : List Byte) : ∀ (y : Sys) (a j : Nat),
    (y.pokeN a bs).peek j = if a ≤ j ∧ j < a + bs.length then bs.getD (j - a) 0 else y.peek j := by
  induction bs with
  | nil => intro y a j; simp [Sys.pokeN] <;> omega
  | cons b bs ih =>
    intro y a j
    rw [Sys.pokeN, ih, Sys.peek_poke]
    by_cases h1 : j = a
    · subst h1; rw [if_neg (by omega), if_pos rfl, if_pos (by simp)]; simp
    · by_cases h2 : a + 1 ≤ j ∧ j < a + 1 + bs.length
      · obtain ⟨n, rfl⟩ : ∃ n, j = a + n + 1 := ⟨j - a - 1, by omega⟩
        have e : a + n + 1 - a = n + 1 := by omega
        have e2 : a + n + 1 - (a + 1) = n := by omega
        rw [if_pos h2, if_pos (by simp; omega), e, e2]; simp
      · rw [if_neg h2, if_neg h1, if_neg (by simp at *; omega)]

@[simp] theorem Sys.markPoison_mem (a n : Nat) (p : Bool) : (y.markPoison a n p).mem = y.mem := by
  unfold Sys.markPoison; split <;> rfl
@[simp] theorem Sys.markValid_mem (a n : Nat) : (y.markValid a n).mem = y.mem := rfl
@[simp] theorem Sys.markState_mem (a n v : Nat) : (y.markState a n v).mem = y.mem := by
  unfold Sys.markState; split <;> rfl

theorem Sys.store_mem (a : Nat) (bs : List Byte) (p : Bool) : (y.store a bs p).mem = (y.pokeN a bs).mem := by simp [Sys.store]

/-- A store changes the bytes it covers and no other. -/
theorem Sys.peek_store (a j : Nat) (bs : List Byte) (p : Bool) :
    (y.store a bs p).peek j = if a ≤ j ∧ j < a + bs.length then bs.getD (j - a) 0 else y.peek j := by
  rw [← Sys.peek_pokeN]; simp [Sys.peek, Sys.store_mem]

theorem natToBytes_length : ∀ n v, (natToBytes n v).length = n
  | 0, _ => rfl
  | n + 1, v => by simp [natToBytes, natToBytes_length n]

/-! ### The canonical form -/

theorem Sys.poke_wf (h : Memory.wf y.mem = true) (a : Nat) (b : Byte) : Memory.wf (y.poke a b).mem = true := mapWf_mapSet h

theorem Sys.pokeN_wf : ∀ (bs : List Byte) {y : Sys}, Memory.wf y.mem = true → ∀ a, Memory.wf (y.pokeN a bs).mem = true
  | [], _, h, _ => h
  | b :: bs, _, h, a => Sys.pokeN_wf bs (Sys.poke_wf h a b) (a + 1)

theorem Sys.store_wf (h : Memory.wf y.mem = true) (a : Nat) (bs : List Byte) (p : Bool) : Memory.wf (y.store a bs p).mem = true := by
  rw [Sys.store_mem]; exact Sys.pokeN_wf bs h a

theorem storeMarked_wf (h : Memory.wf y.mem = true) (a : Nat) (bs : List Byte) (ms : List Bool) :
    Memory.wf (storeMarked a bs ms y).mem = true := by
  unfold storeMarked
  have : ∀ (l : List Nat) (z : Sys), Memory.wf z.mem = true →
      Memory.wf (l.foldl (fun z i => if ms.getD i false then z.markPoison (a + i) 1 true else z) z).mem = true := by
    intro l
    induction l with
    | nil => intro z hz; exact hz
    | cons i l ih => intro z hz; exact ih _ (by dsimp only; split <;> simp [hz])
  exact this _ _ (Sys.store_wf h a bs false)

theorem Sys.clearValid_wf (h : Memory.wf y.mem = true) (p : Nat → Bool) : Memory.wf (y.clearValid p).mem = true :=
  mapWf_mapFilter (p := fun a => !p a) h

theorem reset_memWf : State.reset.memWf = true := rfl

end Sys2Proof.Machine
end

