-- ==== Sys2Proof/Laws/Events.lean ====
section
/-! SUPPORT. What posting an entry to EVQ can do, and everything it leaves alone; the same of events, completions and faults. -/

namespace Sys2Proof.Machine

variable (y : Sys)

/-! ### signalVector, signalRing, writeEvq, post -/

@[simp] theorem Sys.pokeN_air (a : Nat) (bs : List Byte) : (y.pokeN a bs).air = y.air := by induction bs generalizing y a with | nil => rfl | cons b bs ih => exact (ih _ _).trans rfl
@[simp] theorem Sys.pokeN_copies (a : Nat) (bs : List Byte) : (y.pokeN a bs).copies = y.copies := by induction bs generalizing y a with | nil => rfl | cons b bs ih => exact (ih _ _).trans rfl
@[simp] theorem Sys.pokeN_poison (a : Nat) (bs : List Byte) : (y.pokeN a bs).poison = y.poison := by induction bs generalizing y a with | nil => rfl | cons b bs ih => exact (ih _ _).trans rfl
@[simp] theorem Sys.pokeN_granuleState (a : Nat) (bs : List Byte) : (y.pokeN a bs).granuleState = y.granuleState := by induction bs generalizing y a with | nil => rfl | cons b bs ih => exact (ih _ _).trans rfl
@[simp] theorem Sys.pokeN_valid (a : Nat) (bs : List Byte) : (y.pokeN a bs).valid = y.valid := by induction bs generalizing y a with | nil => rfl | cons b bs ih => exact (ih _ _).trans rfl
@[simp] theorem Sys.pokeN_counters (a : Nat) (bs : List Byte) : (y.pokeN a bs).counters = y.counters := by induction bs generalizing y a with | nil => rfl | cons b bs ih => exact (ih _ _).trans rfl
@[simp] theorem Sys.pokeN_unfolded (a : Nat) (bs : List Byte) : (y.pokeN a bs).unfolded = y.unfolded := by induction bs generalizing y a with | nil => rfl | cons b bs ih => exact (ih _ _).trans rfl
@[simp] theorem Sys.pokeN_satTotal (a : Nat) (bs : List Byte) : (y.pokeN a bs).satTotal = y.satTotal := by induction bs generalizing y a with | nil => rfl | cons b bs ih => exact (ih _ _).trans rfl
@[simp] theorem Sys.pokeN_unfTotal (a : Nat) (bs : List Byte) : (y.pokeN a bs).unfTotal = y.unfTotal := by induction bs generalizing y a with | nil => rfl | cons b bs ih => exact (ih _ _).trans rfl
@[simp] theorem Sys.pokeN_anyFault (a : Nat) (bs : List Byte) : (y.pokeN a bs).anyFault = y.anyFault := by induction bs generalizing y a with | nil => rfl | cons b bs ih => exact (ih _ _).trans rfl
@[simp] theorem Sys.pokeN_logKept (a : Nat) (bs : List Byte) : (y.pokeN a bs).logKept = y.logKept := by induction bs generalizing y a with | nil => rfl | cons b bs ih => exact (ih _ _).trans rfl
@[simp] theorem Sys.pokeN_logRing (a : Nat) (bs : List Byte) : (y.pokeN a bs).logRing = y.logRing := by induction bs generalizing y a with | nil => rfl | cons b bs ih => exact (ih _ _).trans rfl
@[simp] theorem Sys.pokeN_rings (a : Nat) (bs : List Byte) : (y.pokeN a bs).rings = y.rings := by induction bs generalizing y a with | nil => rfl | cons b bs ih => exact (ih _ _).trans rfl
@[simp] theorem Sys.pokeN_held (a : Nat) (bs : List Byte) : (y.pokeN a bs).held = y.held := by induction bs generalizing y a with | nil => rfl | cons b bs ih => exact (ih _ _).trans rfl
@[simp] theorem Sys.pokeN_dropped (a : Nat) (bs : List Byte) : (y.pokeN a bs).dropped = y.dropped := by induction bs generalizing y a with | nil => rfl | cons b bs ih => exact (ih _ _).trans rfl
@[simp] theorem Sys.pokeN_dropFirst (a : Nat) (bs : List Byte) : (y.pokeN a bs).dropFirst = y.dropFirst := by induction bs generalizing y a with | nil => rfl | cons b bs ih => exact (ih _ _).trans rfl
@[simp] theorem Sys.pokeN_msixTable (a : Nat) (bs : List Byte) : (y.pokeN a bs).msixTable = y.msixTable := by induction bs generalizing y a with | nil => rfl | cons b bs ih => exact (ih _ _).trans rfl
@[simp] theorem Sys.pokeN_msixPending (a : Nat) (bs : List Byte) : (y.pokeN a bs).msixPending = y.msixPending := by induction bs generalizing y a with | nil => rfl | cons b bs ih => exact (ih _ _).trans rfl
@[simp] theorem Sys.pokeN_regs (a : Nat) (bs : List Byte) : (y.pokeN a bs).regs = y.regs := by induction bs generalizing y a with | nil => rfl | cons b bs ih => exact (ih _ _).trans rfl
@[simp] theorem Sys.pokeN_fences (a : Nat) (bs : List Byte) : (y.pokeN a bs).fences = y.fences := by induction bs generalizing y a with | nil => rfl | cons b bs ih => exact (ih _ _).trans rfl
@[simp] theorem Sys.pokeN_trace (a : Nat) (bs : List Byte) : (y.pokeN a bs).trace = y.trace := by induction bs generalizing y a with | nil => rfl | cons b bs ih => exact (ih _ _).trans rfl
@[simp] theorem Sys.pokeN_jobFault (a : Nat) (bs : List Byte) : (y.pokeN a bs).jobFault = y.jobFault := by induction bs generalizing y a with | nil => rfl | cons b bs ih => exact (ih _ _).trans rfl
@[simp] theorem Sys.pokeN_weightRanges (a : Nat) (bs : List Byte) : (y.pokeN a bs).weightRanges = y.weightRanges := by induction bs generalizing y a with | nil => rfl | cons b bs ih => exact (ih _ _).trans rfl
@[simp] theorem Sys.pokeN_weightPoison (a : Nat) (bs : List Byte) : (y.pokeN a bs).weightPoison = y.weightPoison := by induction bs generalizing y a with | nil => rfl | cons b bs ih => exact (ih _ _).trans rfl
@[simp] theorem Sys.pokeN_headCache (a : Nat) (bs : List Byte) : (y.pokeN a bs).headCache = y.headCache := by induction bs generalizing y a with | nil => rfl | cons b bs ih => exact (ih _ _).trans rfl
@[simp] theorem Sys.pokeN_sent (a : Nat) (bs : List Byte) : (y.pokeN a bs).sent = y.sent := by induction bs generalizing y a with | nil => rfl | cons b bs ih => exact (ih _ _).trans rfl
@[simp] theorem Sys.pokeN_seed (a : Nat) (bs : List Byte) : (y.pokeN a bs).seed = y.seed := by induction bs generalizing y a with | nil => rfl | cons b bs ih => exact (ih _ _).trans rfl

@[simp] theorem Sys.signalVector_air (v : Nat) : (y.signalVector v).air = y.air := by unfold Sys.signalVector; split <;> rfl
@[simp] theorem Sys.signalVector_copies (v : Nat) : (y.signalVector v).copies = y.copies := by unfold Sys.signalVector; split <;> rfl
@[simp] theorem Sys.signalVector_mem (v : Nat) : (y.signalVector v).mem = y.mem := by unfold Sys.signalVector; split <;> rfl
@[simp] theorem Sys.signalVector_poison (v : Nat) : (y.signalVector v).poison = y.poison := by unfold Sys.signalVector; split <;> rfl
@[simp] theorem Sys.signalVector_granuleState (v : Nat) : (y.signalVector v).granuleState = y.granuleState := by unfold Sys.signalVector; split <;> rfl
@[simp] theorem Sys.signalVector_valid (v : Nat) : (y.signalVector v).valid = y.valid := by unfold Sys.signalVector; split <;> rfl
@[simp] theorem Sys.signalVector_counters (v : Nat) : (y.signalVector v).counters = y.counters := by unfold Sys.signalVector; split <;> rfl
@[simp] theorem Sys.signalVector_unfolded (v : Nat) : (y.signalVector v).unfolded = y.unfolded := by unfold Sys.signalVector; split <;> rfl
@[simp] theorem Sys.signalVector_satTotal (v : Nat) : (y.signalVector v).satTotal = y.satTotal := by unfold Sys.signalVector; split <;> rfl
@[simp] theorem Sys.signalVector_unfTotal (v : Nat) : (y.signalVector v).unfTotal = y.unfTotal := by unfold Sys.signalVector; split <;> rfl
@[simp] theorem Sys.signalVector_anyFault (v : Nat) : (y.signalVector v).anyFault = y.anyFault := by unfold Sys.signalVector; split <;> rfl
@[simp] theorem Sys.signalVector_logKept (v : Nat) : (y.signalVector v).logKept = y.logKept := by unfold Sys.signalVector; split <;> rfl
@[simp] theorem Sys.signalVector_logRing (v : Nat) : (y.signalVector v).logRing = y.logRing := by unfold Sys.signalVector; split <;> rfl
@[simp] theorem Sys.signalVector_rings (v : Nat) : (y.signalVector v).rings = y.rings := by unfold Sys.signalVector; split <;> rfl
@[simp] theorem Sys.signalVector_held (v : Nat) : (y.signalVector v).held = y.held := by unfold Sys.signalVector; split <;> rfl
@[simp] theorem Sys.signalVector_dropped (v : Nat) : (y.signalVector v).dropped = y.dropped := by unfold Sys.signalVector; split <;> rfl
@[simp] theorem Sys.signalVector_dropFirst (v : Nat) : (y.signalVector v).dropFirst = y.dropFirst := by unfold Sys.signalVector; split <;> rfl
@[simp] theorem Sys.signalVector_msixTable (v : Nat) : (y.signalVector v).msixTable = y.msixTable := by unfold Sys.signalVector; split <;> rfl
@[simp] theorem Sys.signalVector_regs (v : Nat) : (y.signalVector v).regs = y.regs := by unfold Sys.signalVector; split <;> rfl
@[simp] theorem Sys.signalVector_fences (v : Nat) : (y.signalVector v).fences = y.fences := by unfold Sys.signalVector; split <;> rfl
@[simp] theorem Sys.signalVector_trace (v : Nat) : (y.signalVector v).trace = y.trace := by unfold Sys.signalVector; split <;> rfl
@[simp] theorem Sys.signalVector_jobFault (v : Nat) : (y.signalVector v).jobFault = y.jobFault := by unfold Sys.signalVector; split <;> rfl
@[simp] theorem Sys.signalVector_weightRanges (v : Nat) : (y.signalVector v).weightRanges = y.weightRanges := by unfold Sys.signalVector; split <;> rfl
@[simp] theorem Sys.signalVector_weightPoison (v : Nat) : (y.signalVector v).weightPoison = y.weightPoison := by unfold Sys.signalVector; split <;> rfl
@[simp] theorem Sys.signalVector_headCache (v : Nat) : (y.signalVector v).headCache = y.headCache := by unfold Sys.signalVector; split <;> rfl
@[simp] theorem Sys.signalVector_seed (v : Nat) : (y.signalVector v).seed = y.seed := by unfold Sys.signalVector; split <;> rfl

@[simp] theorem Sys.signalRing_air (r : Nat) (u : Bool) : (y.signalRing r u).air = y.air := by unfold Sys.signalRing; dsimp only; split <;> simp -implicitDefEqProofs
@[simp] theorem Sys.signalRing_copies (r : Nat) (u : Bool) : (y.signalRing r u).copies = y.copies := by unfold Sys.signalRing; dsimp only; split <;> simp -implicitDefEqProofs
@[simp] theorem Sys.signalRing_mem (r : Nat) (u : Bool) : (y.signalRing r u).mem = y.mem := by unfold Sys.signalRing; dsimp only; split <;> simp -implicitDefEqProofs
@[simp] theorem Sys.signalRing_poison (r : Nat) (u : Bool) : (y.signalRing r u).poison = y.poison := by unfold Sys.signalRing; dsimp only; split <;> simp -implicitDefEqProofs
@[simp] theorem Sys.signalRing_granuleState (r : Nat) (u : Bool) : (y.signalRing r u).granuleState = y.granuleState := by unfold Sys.signalRing; dsimp only; split <;> simp -implicitDefEqProofs
@[simp] theorem Sys.signalRing_valid (r : Nat) (u : Bool) : (y.signalRing r u).valid = y.valid := by unfold Sys.signalRing; dsimp only; split <;> simp -implicitDefEqProofs
@[simp] theorem Sys.signalRing_counters (r : Nat) (u : Bool) : (y.signalRing r u).counters = y.counters := by unfold Sys.signalRing; dsimp only; split <;> simp -implicitDefEqProofs
@[simp] theorem Sys.signalRing_unfolded (r : Nat) (u : Bool) : (y.signalRing r u).unfolded = y.unfolded := by unfold Sys.signalRing; dsimp only; split <;> simp -implicitDefEqProofs
@[simp] theorem Sys.signalRing_satTotal (r : Nat) (u : Bool) : (y.signalRing r u).satTotal = y.satTotal := by unfold Sys.signalRing; dsimp only; split <;> simp -implicitDefEqProofs
@[simp] theorem Sys.signalRing_unfTotal (r : Nat) (u : Bool) : (y.signalRing r u).unfTotal = y.unfTotal := by unfold Sys.signalRing; dsimp only; split <;> simp -implicitDefEqProofs
@[simp] theorem Sys.signalRing_anyFault (r : Nat) (u : Bool) : (y.signalRing r u).anyFault = y.anyFault := by unfold Sys.signalRing; dsimp only; split <;> simp -implicitDefEqProofs
@[simp] theorem Sys.signalRing_logKept (r : Nat) (u : Bool) : (y.signalRing r u).logKept = y.logKept := by unfold Sys.signalRing; dsimp only; split <;> simp -implicitDefEqProofs
@[simp] theorem Sys.signalRing_logRing (r : Nat) (u : Bool) : (y.signalRing r u).logRing = y.logRing := by unfold Sys.signalRing; dsimp only; split <;> simp -implicitDefEqProofs
@[simp] theorem Sys.signalRing_held (r : Nat) (u : Bool) : (y.signalRing r u).held = y.held := by unfold Sys.signalRing; dsimp only; split <;> simp -implicitDefEqProofs
@[simp] theorem Sys.signalRing_dropped (r : Nat) (u : Bool) : (y.signalRing r u).dropped = y.dropped := by unfold Sys.signalRing; dsimp only; split <;> simp -implicitDefEqProofs
@[simp] theorem Sys.signalRing_dropFirst (r : Nat) (u : Bool) : (y.signalRing r u).dropFirst = y.dropFirst := by unfold Sys.signalRing; dsimp only; split <;> simp -implicitDefEqProofs
@[simp] theorem Sys.signalRing_msixTable (r : Nat) (u : Bool) : (y.signalRing r u).msixTable = y.msixTable := by unfold Sys.signalRing; dsimp only; split <;> simp -implicitDefEqProofs
@[simp] theorem Sys.signalRing_regs (r : Nat) (u : Bool) : (y.signalRing r u).regs = y.regs := by unfold Sys.signalRing; dsimp only; split <;> simp -implicitDefEqProofs
@[simp] theorem Sys.signalRing_fences (r : Nat) (u : Bool) : (y.signalRing r u).fences = y.fences := by unfold Sys.signalRing; dsimp only; split <;> simp -implicitDefEqProofs
@[simp] theorem Sys.signalRing_trace (r : Nat) (u : Bool) : (y.signalRing r u).trace = y.trace := by unfold Sys.signalRing; dsimp only; split <;> simp -implicitDefEqProofs
@[simp] theorem Sys.signalRing_jobFault (r : Nat) (u : Bool) : (y.signalRing r u).jobFault = y.jobFault := by unfold Sys.signalRing; dsimp only; split <;> simp -implicitDefEqProofs
@[simp] theorem Sys.signalRing_weightRanges (r : Nat) (u : Bool) : (y.signalRing r u).weightRanges = y.weightRanges := by unfold Sys.signalRing; dsimp only; split <;> simp -implicitDefEqProofs
@[simp] theorem Sys.signalRing_weightPoison (r : Nat) (u : Bool) : (y.signalRing r u).weightPoison = y.weightPoison := by unfold Sys.signalRing; dsimp only; split <;> simp -implicitDefEqProofs
@[simp] theorem Sys.signalRing_headCache (r : Nat) (u : Bool) : (y.signalRing r u).headCache = y.headCache := by unfold Sys.signalRing; dsimp only; split <;> simp -implicitDefEqProofs
@[simp] theorem Sys.signalRing_seed (r : Nat) (u : Bool) : (y.signalRing r u).seed = y.seed := by unfold Sys.signalRing; dsimp only; split <;> simp -implicitDefEqProofs

@[simp] theorem Sys.writeEvq_air (k c : Nat) (r : Record) : (y.writeEvq k c r).air = y.air := by simp -implicitDefEqProofs [Sys.writeEvq]
@[simp] theorem Sys.writeEvq_copies (k c : Nat) (r : Record) : (y.writeEvq k c r).copies = y.copies := by simp -implicitDefEqProofs [Sys.writeEvq]
@[simp] theorem Sys.writeEvq_poison (k c : Nat) (r : Record) : (y.writeEvq k c r).poison = y.poison := by simp -implicitDefEqProofs [Sys.writeEvq]
@[simp] theorem Sys.writeEvq_granuleState (k c : Nat) (r : Record) : (y.writeEvq k c r).granuleState = y.granuleState := by simp -implicitDefEqProofs [Sys.writeEvq]
@[simp] theorem Sys.writeEvq_valid (k c : Nat) (r : Record) : (y.writeEvq k c r).valid = y.valid := by simp -implicitDefEqProofs [Sys.writeEvq]
@[simp] theorem Sys.writeEvq_counters (k c : Nat) (r : Record) : (y.writeEvq k c r).counters = y.counters := by simp -implicitDefEqProofs [Sys.writeEvq]
@[simp] theorem Sys.writeEvq_unfolded (k c : Nat) (r : Record) : (y.writeEvq k c r).unfolded = y.unfolded := by simp -implicitDefEqProofs [Sys.writeEvq]
@[simp] theorem Sys.writeEvq_satTotal (k c : Nat) (r : Record) : (y.writeEvq k c r).satTotal = y.satTotal := by simp -implicitDefEqProofs [Sys.writeEvq]
@[simp] theorem Sys.writeEvq_unfTotal (k c : Nat) (r : Record) : (y.writeEvq k c r).unfTotal = y.unfTotal := by simp -implicitDefEqProofs [Sys.writeEvq]
@[simp] theorem Sys.writeEvq_anyFault (k c : Nat) (r : Record) : (y.writeEvq k c r).anyFault = y.anyFault := by simp -implicitDefEqProofs [Sys.writeEvq]
@[simp] theorem Sys.writeEvq_logKept (k c : Nat) (r : Record) : (y.writeEvq k c r).logKept = y.logKept := by simp -implicitDefEqProofs [Sys.writeEvq]
@[simp] theorem Sys.writeEvq_logRing (k c : Nat) (r : Record) : (y.writeEvq k c r).logRing = y.logRing := by simp -implicitDefEqProofs [Sys.writeEvq]
@[simp] theorem Sys.writeEvq_held (k c : Nat) (r : Record) : (y.writeEvq k c r).held = y.held := by simp -implicitDefEqProofs [Sys.writeEvq]
@[simp] theorem Sys.writeEvq_dropped (k c : Nat) (r : Record) : (y.writeEvq k c r).dropped = y.dropped := by simp -implicitDefEqProofs [Sys.writeEvq]
@[simp] theorem Sys.writeEvq_dropFirst (k c : Nat) (r : Record) : (y.writeEvq k c r).dropFirst = y.dropFirst := by simp -implicitDefEqProofs [Sys.writeEvq]
@[simp] theorem Sys.writeEvq_msixTable (k c : Nat) (r : Record) : (y.writeEvq k c r).msixTable = y.msixTable := by simp -implicitDefEqProofs [Sys.writeEvq]
@[simp] theorem Sys.writeEvq_regs (k c : Nat) (r : Record) : (y.writeEvq k c r).regs = y.regs := by simp -implicitDefEqProofs [Sys.writeEvq]
@[simp] theorem Sys.writeEvq_fences (k c : Nat) (r : Record) : (y.writeEvq k c r).fences = y.fences := by simp -implicitDefEqProofs [Sys.writeEvq]
@[simp] theorem Sys.writeEvq_trace (k c : Nat) (r : Record) : (y.writeEvq k c r).trace = y.trace := by simp -implicitDefEqProofs [Sys.writeEvq]
@[simp] theorem Sys.writeEvq_jobFault (k c : Nat) (r : Record) : (y.writeEvq k c r).jobFault = y.jobFault := by simp -implicitDefEqProofs [Sys.writeEvq]
@[simp] theorem Sys.writeEvq_weightRanges (k c : Nat) (r : Record) : (y.writeEvq k c r).weightRanges = y.weightRanges := by simp -implicitDefEqProofs [Sys.writeEvq]
@[simp] theorem Sys.writeEvq_weightPoison (k c : Nat) (r : Record) : (y.writeEvq k c r).weightPoison = y.weightPoison := by simp -implicitDefEqProofs [Sys.writeEvq]
@[simp] theorem Sys.writeEvq_headCache (k c : Nat) (r : Record) : (y.writeEvq k c r).headCache = y.headCache := by simp -implicitDefEqProofs [Sys.writeEvq]
@[simp] theorem Sys.writeEvq_seed (k c : Nat) (r : Record) : (y.writeEvq k c r).seed = y.seed := by simp -implicitDefEqProofs [Sys.writeEvq]

@[simp] theorem Sys.post_air (e : EvEntry) : (y.post e).air = y.air := by unfold Sys.post; split <;> (try split) <;> simp -implicitDefEqProofs
@[simp] theorem Sys.post_copies (e : EvEntry) : (y.post e).copies = y.copies := by unfold Sys.post; split <;> (try split) <;> simp -implicitDefEqProofs
@[simp] theorem Sys.post_poison (e : EvEntry) : (y.post e).poison = y.poison := by unfold Sys.post; split <;> (try split) <;> simp -implicitDefEqProofs
@[simp] theorem Sys.post_granuleState (e : EvEntry) : (y.post e).granuleState = y.granuleState := by unfold Sys.post; split <;> (try split) <;> simp -implicitDefEqProofs
@[simp] theorem Sys.post_valid (e : EvEntry) : (y.post e).valid = y.valid := by unfold Sys.post; split <;> (try split) <;> simp -implicitDefEqProofs
@[simp] theorem Sys.post_unfolded (e : EvEntry) : (y.post e).unfolded = y.unfolded := by unfold Sys.post; split <;> (try split) <;> simp -implicitDefEqProofs
@[simp] theorem Sys.post_satTotal (e : EvEntry) : (y.post e).satTotal = y.satTotal := by unfold Sys.post; split <;> (try split) <;> simp -implicitDefEqProofs
@[simp] theorem Sys.post_unfTotal (e : EvEntry) : (y.post e).unfTotal = y.unfTotal := by unfold Sys.post; split <;> (try split) <;> simp -implicitDefEqProofs
@[simp] theorem Sys.post_anyFault (e : EvEntry) : (y.post e).anyFault = y.anyFault := by unfold Sys.post; split <;> (try split) <;> simp -implicitDefEqProofs
@[simp] theorem Sys.post_logKept (e : EvEntry) : (y.post e).logKept = y.logKept := by unfold Sys.post; split <;> (try split) <;> simp -implicitDefEqProofs
@[simp] theorem Sys.post_logRing (e : EvEntry) : (y.post e).logRing = y.logRing := by unfold Sys.post; split <;> (try split) <;> simp -implicitDefEqProofs
@[simp] theorem Sys.post_msixTable (e : EvEntry) : (y.post e).msixTable = y.msixTable := by unfold Sys.post; split <;> (try split) <;> simp -implicitDefEqProofs
@[simp] theorem Sys.post_regs (e : EvEntry) : (y.post e).regs = y.regs := by unfold Sys.post; split <;> (try split) <;> simp -implicitDefEqProofs
@[simp] theorem Sys.post_fences (e : EvEntry) : (y.post e).fences = y.fences := by unfold Sys.post; split <;> (try split) <;> simp -implicitDefEqProofs
@[simp] theorem Sys.post_trace (e : EvEntry) : (y.post e).trace = y.trace := by unfold Sys.post; split <;> (try split) <;> simp -implicitDefEqProofs
@[simp] theorem Sys.post_jobFault (e : EvEntry) : (y.post e).jobFault = y.jobFault := by unfold Sys.post; split <;> (try split) <;> simp -implicitDefEqProofs
@[simp] theorem Sys.post_weightRanges (e : EvEntry) : (y.post e).weightRanges = y.weightRanges := by unfold Sys.post; split <;> (try split) <;> simp -implicitDefEqProofs
@[simp] theorem Sys.post_weightPoison (e : EvEntry) : (y.post e).weightPoison = y.weightPoison := by unfold Sys.post; split <;> (try split) <;> simp -implicitDefEqProofs
@[simp] theorem Sys.post_headCache (e : EvEntry) : (y.post e).headCache = y.headCache := by unfold Sys.post; split <;> (try split) <;> simp -implicitDefEqProofs
@[simp] theorem Sys.post_seed (e : EvEntry) : (y.post e).seed = y.seed := by unfold Sys.post; split <;> (try split) <;> simp -implicitDefEqProofs

@[simp] theorem Sys.event_air (c : Nat) (fs : List (Nat × Nat × Nat)) : (y.event c fs).air = y.air := by simp -implicitDefEqProofs [Sys.event]
@[simp] theorem Sys.event_copies (c : Nat) (fs : List (Nat × Nat × Nat)) : (y.event c fs).copies = y.copies := by simp -implicitDefEqProofs [Sys.event]
@[simp] theorem Sys.event_poison (c : Nat) (fs : List (Nat × Nat × Nat)) : (y.event c fs).poison = y.poison := by simp -implicitDefEqProofs [Sys.event]
@[simp] theorem Sys.event_granuleState (c : Nat) (fs : List (Nat × Nat × Nat)) : (y.event c fs).granuleState = y.granuleState := by simp -implicitDefEqProofs [Sys.event]
@[simp] theorem Sys.event_valid (c : Nat) (fs : List (Nat × Nat × Nat)) : (y.event c fs).valid = y.valid := by simp -implicitDefEqProofs [Sys.event]
@[simp] theorem Sys.event_unfolded (c : Nat) (fs : List (Nat × Nat × Nat)) : (y.event c fs).unfolded = y.unfolded := by simp -implicitDefEqProofs [Sys.event]
@[simp] theorem Sys.event_satTotal (c : Nat) (fs : List (Nat × Nat × Nat)) : (y.event c fs).satTotal = y.satTotal := by simp -implicitDefEqProofs [Sys.event]
@[simp] theorem Sys.event_unfTotal (c : Nat) (fs : List (Nat × Nat × Nat)) : (y.event c fs).unfTotal = y.unfTotal := by simp -implicitDefEqProofs [Sys.event]
@[simp] theorem Sys.event_anyFault (c : Nat) (fs : List (Nat × Nat × Nat)) : (y.event c fs).anyFault = y.anyFault := by simp -implicitDefEqProofs [Sys.event]
@[simp] theorem Sys.event_logKept (c : Nat) (fs : List (Nat × Nat × Nat)) : (y.event c fs).logKept = y.logKept := by simp -implicitDefEqProofs [Sys.event]
@[simp] theorem Sys.event_logRing (c : Nat) (fs : List (Nat × Nat × Nat)) : (y.event c fs).logRing = y.logRing := by simp -implicitDefEqProofs [Sys.event]
@[simp] theorem Sys.event_msixTable (c : Nat) (fs : List (Nat × Nat × Nat)) : (y.event c fs).msixTable = y.msixTable := by simp -implicitDefEqProofs [Sys.event]
@[simp] theorem Sys.event_regs (c : Nat) (fs : List (Nat × Nat × Nat)) : (y.event c fs).regs = y.regs := by simp -implicitDefEqProofs [Sys.event]
@[simp] theorem Sys.event_fences (c : Nat) (fs : List (Nat × Nat × Nat)) : (y.event c fs).fences = y.fences := by simp -implicitDefEqProofs [Sys.event]
@[simp] theorem Sys.event_trace (c : Nat) (fs : List (Nat × Nat × Nat)) : (y.event c fs).trace = y.trace := by simp -implicitDefEqProofs [Sys.event]
@[simp] theorem Sys.event_jobFault (c : Nat) (fs : List (Nat × Nat × Nat)) : (y.event c fs).jobFault = y.jobFault := by simp -implicitDefEqProofs [Sys.event]
@[simp] theorem Sys.event_weightRanges (c : Nat) (fs : List (Nat × Nat × Nat)) : (y.event c fs).weightRanges = y.weightRanges := by simp -implicitDefEqProofs [Sys.event]
@[simp] theorem Sys.event_weightPoison (c : Nat) (fs : List (Nat × Nat × Nat)) : (y.event c fs).weightPoison = y.weightPoison := by simp -implicitDefEqProofs [Sys.event]
@[simp] theorem Sys.event_headCache (c : Nat) (fs : List (Nat × Nat × Nat)) : (y.event c fs).headCache = y.headCache := by simp -implicitDefEqProofs [Sys.event]
@[simp] theorem Sys.event_seed (c : Nat) (fs : List (Nat × Nat × Nat)) : (y.event c fs).seed = y.seed := by simp -implicitDefEqProofs [Sys.event]

@[simp] theorem Sys.completion_air (c r o q t z d : Nat) : (y.completion c r o q t z d).air = y.air := by simp -implicitDefEqProofs [Sys.completion]
@[simp] theorem Sys.completion_copies (c r o q t z d : Nat) : (y.completion c r o q t z d).copies = y.copies := by simp -implicitDefEqProofs [Sys.completion]
@[simp] theorem Sys.completion_poison (c r o q t z d : Nat) : (y.completion c r o q t z d).poison = y.poison := by simp -implicitDefEqProofs [Sys.completion]
@[simp] theorem Sys.completion_granuleState (c r o q t z d : Nat) : (y.completion c r o q t z d).granuleState = y.granuleState := by simp -implicitDefEqProofs [Sys.completion]
@[simp] theorem Sys.completion_valid (c r o q t z d : Nat) : (y.completion c r o q t z d).valid = y.valid := by simp -implicitDefEqProofs [Sys.completion]
@[simp] theorem Sys.completion_unfolded (c r o q t z d : Nat) : (y.completion c r o q t z d).unfolded = y.unfolded := by simp -implicitDefEqProofs [Sys.completion]
@[simp] theorem Sys.completion_satTotal (c r o q t z d : Nat) : (y.completion c r o q t z d).satTotal = y.satTotal := by simp -implicitDefEqProofs [Sys.completion]
@[simp] theorem Sys.completion_unfTotal (c r o q t z d : Nat) : (y.completion c r o q t z d).unfTotal = y.unfTotal := by simp -implicitDefEqProofs [Sys.completion]
@[simp] theorem Sys.completion_anyFault (c r o q t z d : Nat) : (y.completion c r o q t z d).anyFault = y.anyFault := by simp -implicitDefEqProofs [Sys.completion]
@[simp] theorem Sys.completion_logKept (c r o q t z d : Nat) : (y.completion c r o q t z d).logKept = y.logKept := by simp -implicitDefEqProofs [Sys.completion]
@[simp] theorem Sys.completion_logRing (c r o q t z d : Nat) : (y.completion c r o q t z d).logRing = y.logRing := by simp -implicitDefEqProofs [Sys.completion]
@[simp] theorem Sys.completion_msixTable (c r o q t z d : Nat) : (y.completion c r o q t z d).msixTable = y.msixTable := by simp -implicitDefEqProofs [Sys.completion]
@[simp] theorem Sys.completion_regs (c r o q t z d : Nat) : (y.completion c r o q t z d).regs = y.regs := by simp -implicitDefEqProofs [Sys.completion]
@[simp] theorem Sys.completion_fences (c r o q t z d : Nat) : (y.completion c r o q t z d).fences = y.fences := by simp -implicitDefEqProofs [Sys.completion]
@[simp] theorem Sys.completion_trace (c r o q t z d : Nat) : (y.completion c r o q t z d).trace = y.trace := by simp -implicitDefEqProofs [Sys.completion]
@[simp] theorem Sys.completion_jobFault (c r o q t z d : Nat) : (y.completion c r o q t z d).jobFault = y.jobFault := by simp -implicitDefEqProofs [Sys.completion]
@[simp] theorem Sys.completion_weightRanges (c r o q t z d : Nat) : (y.completion c r o q t z d).weightRanges = y.weightRanges := by simp -implicitDefEqProofs [Sys.completion]
@[simp] theorem Sys.completion_weightPoison (c r o q t z d : Nat) : (y.completion c r o q t z d).weightPoison = y.weightPoison := by simp -implicitDefEqProofs [Sys.completion]
@[simp] theorem Sys.completion_headCache (c r o q t z d : Nat) : (y.completion c r o q t z d).headCache = y.headCache := by simp -implicitDefEqProofs [Sys.completion]
@[simp] theorem Sys.completion_seed (c r o q t z d : Nat) : (y.completion c r o q t z d).seed = y.seed := by simp -implicitDefEqProofs [Sys.completion]

@[simp] theorem Sys.log_air (r : Record) : (y.log r).air = y.air := by unfold Sys.log; split <;> (try split) <;> rfl
@[simp] theorem Sys.log_copies (r : Record) : (y.log r).copies = y.copies := by unfold Sys.log; split <;> (try split) <;> rfl
@[simp] theorem Sys.log_mem (r : Record) : (y.log r).mem = y.mem := by unfold Sys.log; split <;> (try split) <;> rfl
@[simp] theorem Sys.log_poison (r : Record) : (y.log r).poison = y.poison := by unfold Sys.log; split <;> (try split) <;> rfl
@[simp] theorem Sys.log_granuleState (r : Record) : (y.log r).granuleState = y.granuleState := by unfold Sys.log; split <;> (try split) <;> rfl
@[simp] theorem Sys.log_valid (r : Record) : (y.log r).valid = y.valid := by unfold Sys.log; split <;> (try split) <;> rfl
@[simp] theorem Sys.log_counters (r : Record) : (y.log r).counters = y.counters := by unfold Sys.log; split <;> (try split) <;> rfl
@[simp] theorem Sys.log_unfolded (r : Record) : (y.log r).unfolded = y.unfolded := by unfold Sys.log; split <;> (try split) <;> rfl
@[simp] theorem Sys.log_satTotal (r : Record) : (y.log r).satTotal = y.satTotal := by unfold Sys.log; split <;> (try split) <;> rfl
@[simp] theorem Sys.log_unfTotal (r : Record) : (y.log r).unfTotal = y.unfTotal := by unfold Sys.log; split <;> (try split) <;> rfl
@[simp] theorem Sys.log_anyFault (r : Record) : (y.log r).anyFault = y.anyFault := by unfold Sys.log; split <;> (try split) <;> rfl
@[simp] theorem Sys.log_rings (r : Record) : (y.log r).rings = y.rings := by unfold Sys.log; split <;> (try split) <;> rfl
@[simp] theorem Sys.log_held (r : Record) : (y.log r).held = y.held := by unfold Sys.log; split <;> (try split) <;> rfl
@[simp] theorem Sys.log_dropped (r : Record) : (y.log r).dropped = y.dropped := by unfold Sys.log; split <;> (try split) <;> rfl
@[simp] theorem Sys.log_dropFirst (r : Record) : (y.log r).dropFirst = y.dropFirst := by unfold Sys.log; split <;> (try split) <;> rfl
@[simp] theorem Sys.log_msixTable (r : Record) : (y.log r).msixTable = y.msixTable := by unfold Sys.log; split <;> (try split) <;> rfl
@[simp] theorem Sys.log_msixPending (r : Record) : (y.log r).msixPending = y.msixPending := by unfold Sys.log; split <;> (try split) <;> rfl
@[simp] theorem Sys.log_regs (r : Record) : (y.log r).regs = y.regs := by unfold Sys.log; split <;> (try split) <;> rfl
@[simp] theorem Sys.log_fences (r : Record) : (y.log r).fences = y.fences := by unfold Sys.log; split <;> (try split) <;> rfl
@[simp] theorem Sys.log_trace (r : Record) : (y.log r).trace = y.trace := by unfold Sys.log; split <;> (try split) <;> rfl
@[simp] theorem Sys.log_jobFault (r : Record) : (y.log r).jobFault = y.jobFault := by unfold Sys.log; split <;> (try split) <;> rfl
@[simp] theorem Sys.log_weightRanges (r : Record) : (y.log r).weightRanges = y.weightRanges := by unfold Sys.log; split <;> (try split) <;> rfl
@[simp] theorem Sys.log_weightPoison (r : Record) : (y.log r).weightPoison = y.weightPoison := by unfold Sys.log; split <;> (try split) <;> rfl
@[simp] theorem Sys.log_headCache (r : Record) : (y.log r).headCache = y.headCache := by unfold Sys.log; split <;> (try split) <;> rfl
@[simp] theorem Sys.log_sent (r : Record) : (y.log r).sent = y.sent := by unfold Sys.log; split <;> (try split) <;> rfl
@[simp] theorem Sys.log_seed (r : Record) : (y.log r).seed = y.seed := by unfold Sys.log; split <;> (try split) <;> rfl

@[simp] theorem Sys.faultWith_air (j : Bool) (c u k t d : Nat) : (y.faultWith j c u k t d).air = y.air := by unfold Sys.faultWith; dsimp only; split <;> simp -implicitDefEqProofs
@[simp] theorem Sys.faultWith_copies (j : Bool) (c u k t d : Nat) : (y.faultWith j c u k t d).copies = y.copies := by unfold Sys.faultWith; dsimp only; split <;> simp -implicitDefEqProofs
@[simp] theorem Sys.faultWith_poison (j : Bool) (c u k t d : Nat) : (y.faultWith j c u k t d).poison = y.poison := by unfold Sys.faultWith; dsimp only; split <;> simp -implicitDefEqProofs
@[simp] theorem Sys.faultWith_granuleState (j : Bool) (c u k t d : Nat) : (y.faultWith j c u k t d).granuleState = y.granuleState := by unfold Sys.faultWith; dsimp only; split <;> simp -implicitDefEqProofs
@[simp] theorem Sys.faultWith_valid (j : Bool) (c u k t d : Nat) : (y.faultWith j c u k t d).valid = y.valid := by unfold Sys.faultWith; dsimp only; split <;> simp -implicitDefEqProofs
@[simp] theorem Sys.faultWith_unfolded (j : Bool) (c u k t d : Nat) : (y.faultWith j c u k t d).unfolded = y.unfolded := by unfold Sys.faultWith; dsimp only; split <;> simp -implicitDefEqProofs
@[simp] theorem Sys.faultWith_satTotal (j : Bool) (c u k t d : Nat) : (y.faultWith j c u k t d).satTotal = y.satTotal := by unfold Sys.faultWith; dsimp only; split <;> simp -implicitDefEqProofs
@[simp] theorem Sys.faultWith_unfTotal (j : Bool) (c u k t d : Nat) : (y.faultWith j c u k t d).unfTotal = y.unfTotal := by unfold Sys.faultWith; dsimp only; split <;> simp -implicitDefEqProofs
@[simp] theorem Sys.faultWith_msixTable (j : Bool) (c u k t d : Nat) : (y.faultWith j c u k t d).msixTable = y.msixTable := by unfold Sys.faultWith; dsimp only; split <;> simp -implicitDefEqProofs
@[simp] theorem Sys.faultWith_regs (j : Bool) (c u k t d : Nat) : (y.faultWith j c u k t d).regs = y.regs := by unfold Sys.faultWith; dsimp only; split <;> simp -implicitDefEqProofs
@[simp] theorem Sys.faultWith_fences (j : Bool) (c u k t d : Nat) : (y.faultWith j c u k t d).fences = y.fences := by unfold Sys.faultWith; dsimp only; split <;> simp -implicitDefEqProofs
@[simp] theorem Sys.faultWith_trace (j : Bool) (c u k t d : Nat) : (y.faultWith j c u k t d).trace = y.trace := by unfold Sys.faultWith; dsimp only; split <;> simp -implicitDefEqProofs
@[simp] theorem Sys.faultWith_weightRanges (j : Bool) (c u k t d : Nat) : (y.faultWith j c u k t d).weightRanges = y.weightRanges := by unfold Sys.faultWith; dsimp only; split <;> simp -implicitDefEqProofs
@[simp] theorem Sys.faultWith_weightPoison (j : Bool) (c u k t d : Nat) : (y.faultWith j c u k t d).weightPoison = y.weightPoison := by unfold Sys.faultWith; dsimp only; split <;> simp -implicitDefEqProofs
@[simp] theorem Sys.faultWith_headCache (j : Bool) (c u k t d : Nat) : (y.faultWith j c u k t d).headCache = y.headCache := by unfold Sys.faultWith; dsimp only; split <;> simp -implicitDefEqProofs
@[simp] theorem Sys.faultWith_seed (j : Bool) (c u k t d : Nat) : (y.faultWith j c u k t d).seed = y.seed := by unfold Sys.faultWith; dsimp only; split <;> simp -implicitDefEqProofs

@[simp] theorem Sys.fault_air (c u k t d : Nat) : (y.fault c u k t d).air = y.air := by simp -implicitDefEqProofs [Sys.fault]
@[simp] theorem Sys.fault_copies (c u k t d : Nat) : (y.fault c u k t d).copies = y.copies := by simp -implicitDefEqProofs [Sys.fault]
@[simp] theorem Sys.fault_poison (c u k t d : Nat) : (y.fault c u k t d).poison = y.poison := by simp -implicitDefEqProofs [Sys.fault]
@[simp] theorem Sys.fault_granuleState (c u k t d : Nat) : (y.fault c u k t d).granuleState = y.granuleState := by simp -implicitDefEqProofs [Sys.fault]
@[simp] theorem Sys.fault_valid (c u k t d : Nat) : (y.fault c u k t d).valid = y.valid := by simp -implicitDefEqProofs [Sys.fault]
@[simp] theorem Sys.fault_unfolded (c u k t d : Nat) : (y.fault c u k t d).unfolded = y.unfolded := by simp -implicitDefEqProofs [Sys.fault]
@[simp] theorem Sys.fault_satTotal (c u k t d : Nat) : (y.fault c u k t d).satTotal = y.satTotal := by simp -implicitDefEqProofs [Sys.fault]
@[simp] theorem Sys.fault_unfTotal (c u k t d : Nat) : (y.fault c u k t d).unfTotal = y.unfTotal := by simp -implicitDefEqProofs [Sys.fault]
@[simp] theorem Sys.fault_msixTable (c u k t d : Nat) : (y.fault c u k t d).msixTable = y.msixTable := by simp -implicitDefEqProofs [Sys.fault]
@[simp] theorem Sys.fault_regs (c u k t d : Nat) : (y.fault c u k t d).regs = y.regs := by simp -implicitDefEqProofs [Sys.fault]
@[simp] theorem Sys.fault_fences (c u k t d : Nat) : (y.fault c u k t d).fences = y.fences := by simp -implicitDefEqProofs [Sys.fault]
@[simp] theorem Sys.fault_trace (c u k t d : Nat) : (y.fault c u k t d).trace = y.trace := by simp -implicitDefEqProofs [Sys.fault]
@[simp] theorem Sys.fault_weightRanges (c u k t d : Nat) : (y.fault c u k t d).weightRanges = y.weightRanges := by simp -implicitDefEqProofs [Sys.fault]
@[simp] theorem Sys.fault_weightPoison (c u k t d : Nat) : (y.fault c u k t d).weightPoison = y.weightPoison := by simp -implicitDefEqProofs [Sys.fault]
@[simp] theorem Sys.fault_headCache (c u k t d : Nat) : (y.fault c u k t d).headCache = y.headCache := by simp -implicitDefEqProofs [Sys.fault]
@[simp] theorem Sys.fault_seed (c u k t d : Nat) : (y.fault c u k t d).seed = y.seed := by simp -implicitDefEqProofs [Sys.fault]

/-! ### Memory, rings and counters -/

/-- An entry fills its two EVQ slots and changes no other byte. -/
theorem Sys.peek_writeEvq (k c a : Nat) (r : Record) (h : y.inEvqEntry a = false) : (y.writeEvq k c r).peek a = y.peek a := by
  simp only [Sys.inEvqEntry, Bool.or_eq_false_iff, decide_eq_false_iff_not] at h
  unfold Sys.writeEvq
  dsimp only
  have e : ∀ (z : Sys) (r : Nat) (u : Bool), (z.signalRing r u).peek a = z.peek a := fun z r u => by
    simp only [Sys.peek, Sys.signalRing_mem]
  have e2 : ∀ (z : Sys) (r : Nat) (q : HostRing), (z.setRing r q).peek a = z.peek a := fun _ _ _ => rfl
  rw [e, e2, Sys.peek_pokeN, natToBytes_length, if_neg h.1, Sys.peek_pokeN, natToBytes_length, if_neg h.2]

theorem Sys.peek_post (e : EvEntry) (a : Nat) (h : y.inEvqEntry a = false) : (y.post e).peek a = y.peek a := by
  unfold Sys.post
  split
  · exact y.peek_writeEvq _ _ a _ h
  · split <;> rfl

theorem Sys.peek_event (c a : Nat) (fs : List (Nat × Nat × Nat)) (h : y.inEvqEntry a = false) : (y.event c fs).peek a = y.peek a := by
  rw [Sys.event]; exact (y.count c).peek_post _ a h

theorem Sys.peek_completion (c r o q t z d a : Nat) (h : y.inEvqEntry a = false) : (y.completion c r o q t z d).peek a = y.peek a := by
  rw [Sys.completion]; exact (y.count c).peek_post _ a h

theorem Sys.inEvqEntry_congr {z : Sys} (h : z.rings = y.rings) (a : Nat) : z.inEvqEntry a = y.inEvqEntry a := by
  have e : z.ring evq = y.ring evq := by unfold Sys.ring; rw [h]
  unfold Sys.inEvqEntry
  rw [e]

theorem Sys.peek_faultWith (j : Bool) (c u k t d a : Nat) (h : y.inEvqEntry a = false) : (y.faultWith j c u k t d).peek a = y.peek a := by
  unfold Sys.faultWith
  dsimp only
  rw [Sys.peek_post]
  · split <;> simp [Sys.peek]
  · rw [y.inEvqEntry_congr _ a]
    · exact h
    · split <;> simp

theorem Sys.peek_fault (c u k t d a : Nat) (h : y.inEvqEntry a = false) : (y.fault c u k t d).peek a = y.peek a :=
  y.peek_faultWith _ c u k t d a h

theorem Sys.writeEvq_wf (h : Memory.wf y.mem = true) (k c : Nat) (r : Record) : Memory.wf (y.writeEvq k c r).mem = true := by
  unfold Sys.writeEvq
  dsimp only
  rw [Sys.signalRing_mem, Sys.setRing_mem]
  exact Sys.pokeN_wf _ (Sys.pokeN_wf _ h _) _

theorem Sys.post_wf (h : Memory.wf y.mem = true) (e : EvEntry) : Memory.wf (y.post e).mem = true := by
  unfold Sys.post
  split
  · exact y.writeEvq_wf h _ _ _
  · split <;> exact h

theorem Sys.event_wf (h : Memory.wf y.mem = true) (c : Nat) (fs : List (Nat × Nat × Nat)) : Memory.wf (y.event c fs).mem = true :=
  Sys.post_wf (y.count c) h _

theorem Sys.completion_wf (h : Memory.wf y.mem = true) (c r o q t z d : Nat) : Memory.wf (y.completion c r o q t z d).mem = true :=
  Sys.post_wf (y.count c) h _

theorem Sys.faultWith_wf (h : Memory.wf y.mem = true) (j : Bool) (c u k t d : Nat) : Memory.wf (y.faultWith j c u k t d).mem = true := by
  unfold Sys.faultWith
  dsimp only
  refine Sys.post_wf _ ?_ _
  split <;> simpa using h

theorem Sys.flushOne_wf (h : Memory.wf y.mem = true) : Memory.wf y.flushOne.mem = true := by
  unfold Sys.flushOne
  split
  · split
    · exact Sys.writeEvq_wf { y with dropped := 0, dropFirst := 0 } h 3 Cls.EVENT_DROP _
    · split
      · exact h
      · rename_i e rest _
        exact Sys.writeEvq_wf { y with held := rest } h e.kind e.cls e.record
  · exact h

/-- Only EVQ's ring moves when an entry is posted. -/
theorem Sys.ring_writeEvq_ne {j : Nat} (hj : j ≠ evq) (k c : Nat) (r : Record) : (y.writeEvq k c r).ring j = y.ring j := by
  have h1 : ∀ (z : Sys) (u : Bool), (z.signalRing evq u).ring j = z.ring j := fun z u => by
    unfold Sys.signalRing
    dsimp only
    split
    · unfold Sys.signalVector; split <;> exact Sys.ring_setRing_ne z _ hj
    · exact Sys.ring_setRing_ne z _ hj
  unfold Sys.writeEvq
  dsimp only
  rw [h1, Sys.ring_setRing_ne _ _ hj]
  simp only [Sys.ring, Sys.pokeN_rings]

theorem Sys.ring_post_ne {j : Nat} (hj : j ≠ evq) (e : EvEntry) : (y.post e).ring j = y.ring j := by
  unfold Sys.post
  split
  · exact y.ring_writeEvq_ne hj _ _ _
  · split <;> rfl

/-- A posted entry is written, held or dropped: the counter of another class changes only where EVENT_DROP counts the drop. -/
theorem Sys.counter_post_ne {c : Nat} (hc : c ≠ Cls.EVENT_DROP) (e : EvEntry) : natAt (y.post e).counters c = natAt y.counters c := by
  unfold Sys.post
  split
  · rw [Sys.writeEvq_counters]
  · split
    · rfl
    · exact Sys.counter_countN_ne _ 1 hc

/-- An event adds one to its class (R592). -/
theorem Sys.counter_event {c : Nat} (hc : c ≠ Cls.EVENT_DROP) (fs : List (Nat × Nat × Nat)) :
    natAt (y.event c fs).counters c = min counterMax (natAt y.counters c + 1) := by
  rw [Sys.event, Sys.counter_post_ne _ hc]; exact y.counter_countN c 1

end Sys2Proof.Machine
end

