-- ==== Sys2Proof/Laws/Gates.lean ====
section
/-! SUPPORT. The gates of the commands: what a gate lets through, and that a closed gate changes nothing. -/

namespace Sys2Proof.Machine

variable {f : State → State} {s : State}

theorem whenUp_of (h : s.up = true) : whenUp f s = f s := by simp [whenUp, h]
theorem whenUp_not (h : s.up = false) : whenUp f s = s := by simp [whenUp, h]
theorem whenHost_of (h : s.hostUp = true) : whenHost f s = f s := by simp only [State.hostUp] at h; simp [whenHost, h]
theorem whenHost_not (h : s.hostUp = false) : whenHost f s = s := by simp only [State.hostUp] at h; simp [whenHost, h]
theorem whenReady_of (h : s.ready = true) : whenReady f s = f s := by simp only [State.ready] at h; simp only [whenReady, h, if_true]
theorem whenReady_not (h : s.ready = false) : whenReady f s = s := by simp only [State.ready] at h; simp [whenReady, h]
theorem whenPowered_of (h : s.heron.powered = true) : whenPowered f s = f s := by simp [whenPowered, h]
theorem whenPowered_not (h : s.heron.powered = false) : whenPowered f s = s := by simp [whenPowered, h]

theorem State.hostUp_up (h : s.hostUp = true) : s.up = true := by
  simp only [State.hostUp, Bool.and_eq_true] at h; exact h.1
theorem State.ready_hostUp (h : s.ready = true) : s.hostUp = true := by
  simp only [State.ready, State.hostUp, Bool.and_eq_true] at *; exact h.1
theorem State.ready_up (h : s.ready = true) : s.up = true := State.hostUp_up (State.ready_hostUp h)

/-- A state in which nothing of `heron` that a gate reads has changed is as far up. -/
theorem State.up_congr {t : State} (h : t.heron = s.heron) : t.up = s.up := by simp [State.up, h]

end Sys2Proof.Machine
end

