-- ==== Sys2Proof/Laws/Reports.lean ====
section
/-! SUPPORT. `Sys.reports`: what entries, counts and fault records may change, closed under doing several of them. -/

namespace Sys2Proof.Machine

variable {y z w : Sys}

theorem Sys.reports_refl : y.reports y := ⟨rfl, fun _ _ => rfl, ⟨rfl, rfl⟩, fun _ _ => rfl⟩

theorem Sys.outsideEvq_congr (h : (z.ring evq).base = (y.ring evq).base ∧ (z.ring evq).log2 = (y.ring evq).log2) (a : Nat) :
    z.outsideEvq a = y.outsideEvq a := by
  unfold Sys.outsideEvq HostRing.size
  dsimp only
  rw [h.1, h.2]

/-- `reports` from the fields it keeps. -/
theorem Sys.reports_of (h : z.air = y.air ∧ z.copies = y.copies ∧ z.poison = y.poison ∧ z.granuleState = y.granuleState ∧ z.valid = y.valid ∧ z.unfolded = y.unfolded ∧ z.satTotal = y.satTotal ∧ z.unfTotal = y.unfTotal ∧ z.msixTable = y.msixTable ∧ z.regs = y.regs ∧ z.fences = y.fences ∧ z.trace = y.trace ∧ z.weightRanges = y.weightRanges ∧ z.weightPoison = y.weightPoison ∧ z.headCache = y.headCache ∧ z.seed = y.seed)
    (hr : ∀ r, r ≠ evq → z.ring r = y.ring r) (hc : (z.ring evq).base = (y.ring evq).base ∧ (z.ring evq).log2 = (y.ring evq).log2)
    (hp : ∀ a, y.outsideEvq a = true → z.peek a = y.peek a) : y.reports z := by
  refine ⟨?_, hr, hc, hp⟩
  cases z
  simp only [Sys.mk.injEq, true_and] at *
  exact h

theorem Sys.reports_trans (h1 : y.reports z) (h2 : z.reports w) : y.reports w := by
  obtain ⟨a1, b1, c1, d1⟩ := h1
  obtain ⟨a2, b2, c2, d2⟩ := h2
  refine ⟨?_, fun r hr => (b2 r hr).trans (b1 r hr), ⟨c2.1.trans c1.1, c2.2.trans c1.2⟩, fun a ha => ?_⟩
  · rw [a2, a1]
  · rw [d2 a ((Sys.outsideEvq_congr c1 a).trans ha), d1 a ha]

theorem Sys.reports_count (c n : Nat) : y.reports (y.countN c n) := ⟨rfl, fun _ _ => rfl, ⟨rfl, rfl⟩, fun _ _ => rfl⟩

/-- An entry's slots lie in the ring. -/
theorem HostRing.slotAddr_bounds (h : HostRing) (i : Nat) :
    hostBase + h.base ≤ h.slotAddr i ∧ h.slotAddr i + 32 ≤ hostBase + h.base + 32 * h.size := by
  have hs : 0 < h.size := by unfold HostRing.size; exact Nat.two_pow_pos _
  have hm := Nat.mod_lt i hs
  unfold HostRing.slotAddr
  omega

theorem Sys.inEvqEntry_of_outside {a : Nat} (h : y.outsideEvq a = true) : y.inEvqEntry a = false := by
  have b1 := (y.ring evq).slotAddr_bounds (y.ring evq).modPos
  have b2 := (y.ring evq).slotAddr_bounds ((y.ring evq).modPos + 1)
  simp only [Sys.outsideEvq, Bool.or_eq_true, decide_eq_true_eq] at h
  simp only [Sys.inEvqEntry, Bool.or_eq_false_iff, decide_eq_false_iff_not]
  omega

theorem Sys.signalVector_ring (v j : Nat) : (y.signalVector v).ring j = y.ring j := by
  simp only [Sys.ring, Sys.signalVector_rings]

/-- An entry moves EVQ's position and leaves its place and size. -/
theorem Sys.writeEvq_config (k c : Nat) (r : Record) :
    ((y.writeEvq k c r).ring evq).base = (y.ring evq).base ∧ ((y.writeEvq k c r).ring evq).log2 = (y.ring evq).log2 := by
  unfold Sys.writeEvq
  dsimp only
  unfold Sys.signalRing
  dsimp only
  split
  · rw [Sys.signalVector_ring, Sys.ring_setRing, Sys.ring_setRing]; exact ⟨rfl, rfl⟩
  · rw [Sys.ring_setRing, Sys.ring_setRing]; exact ⟨rfl, rfl⟩

theorem Sys.reports_writeEvq (k c : Nat) (r : Record) : y.reports (y.writeEvq k c r) := by
  refine Sys.reports_of (by simp) (fun j hj => y.ring_writeEvq_ne hj k c r) (Sys.writeEvq_config k c r)
    (fun a ha => y.peek_writeEvq k c a r (Sys.inEvqEntry_of_outside ha))

theorem Sys.reports_post (e : EvEntry) : y.reports (y.post e) := by
  refine Sys.reports_of (by simp) (fun j hj => y.ring_post_ne hj e) ?_ (fun a ha => y.peek_post e a (Sys.inEvqEntry_of_outside ha))
  unfold Sys.post
  split
  · exact Sys.writeEvq_config _ _ _
  · split <;> exact ⟨rfl, rfl⟩

theorem Sys.reports_event (c : Nat) (fs : List (Nat × Nat × Nat)) : y.reports (y.event c fs) := by
  rw [Sys.event]; exact Sys.reports_trans (Sys.reports_count c 1) (Sys.reports_post _)

theorem Sys.reports_completion (c r o q t z d : Nat) : y.reports (y.completion c r o q t z d) := by
  rw [Sys.completion]; exact Sys.reports_trans (Sys.reports_count c 1) (Sys.reports_post _)

theorem Sys.reports_log (r : Record) : y.reports (y.log r) := by
  unfold Sys.log
  split
  · exact ⟨rfl, fun _ _ => rfl, ⟨rfl, rfl⟩, fun _ _ => rfl⟩
  · split <;> exact ⟨rfl, fun _ _ => rfl, ⟨rfl, rfl⟩, fun _ _ => rfl⟩

theorem Sys.reports_faultWith (j : Bool) (c u k t d : Nat) : y.reports (y.faultWith j c u k t d) := by
  have h0 : y.reports { y with anyFault := true } := ⟨rfl, fun _ _ => rfl, ⟨rfl, rfl⟩, fun _ _ => rfl⟩
  have h1 := Sys.reports_trans (Sys.reports_trans h0 (Sys.reports_log (faultRecord c u k t (y.airCopy (k / 256 % 4)) d))) (Sys.reports_count c 1)
  unfold Sys.faultWith
  dsimp only
  refine Sys.reports_trans ?_ (Sys.reports_post _)
  split
  · exact Sys.reports_trans h1 ⟨rfl, fun _ _ => rfl, ⟨rfl, rfl⟩, fun _ _ => rfl⟩
  · exact h1

theorem Sys.reports_fault (c u k t d : Nat) : y.reports (y.fault c u k t d) := Sys.reports_faultWith _ c u k t d

/-- Reports on one set of registers are reports on any. -/
theorem Sys.reports_setRegs (h : y.reports z) (r : Regs) : Sys.reports { y with regs := r } { z with regs := r } := by
  obtain ⟨a, b, c, d⟩ := h
  refine ⟨?_, b, c, d⟩
  conv => lhs; rw [a]

/-- Reports leave every register and fence, air time and the seed of free values as they stand. -/
theorem Sys.reports_reg (h : y.reports z) (off : Nat) : z.reg off = y.reg off := by rw [h.1]; rfl
theorem Sys.reports_air (h : y.reports z) : z.air = y.air := by rw [h.1]
theorem Sys.reports_now (h : y.reports z) : z.now = y.now := by rw [h.1]; rfl
theorem Sys.reports_airCopy (h : y.reports z) (q : Nat) : z.airCopy q = y.airCopy q := by rw [h.1]; rfl
theorem Sys.reports_regs (h : y.reports z) : z.regs = y.regs := by rw [h.1]
theorem Sys.reports_fences (h : y.reports z) : z.fences = y.fences := by rw [h.1]
theorem Sys.reports_seed (h : y.reports z) : z.seed = y.seed := by rw [h.1]

end Sys2Proof.Machine
end

