-- ==== Sys2Proof/Laws/Stop.lean ====
section
/-! SUPPORT. What mutes, a change of servo state and module stop do to the rest of the state. -/

namespace Sys2Proof.Machine

/-- A mute cancels frames on their way; it changes only what has left the module and the marks of those frames. -/
theorem enforceMute_frame (s : State) :
    enforceMute s = { s with
      sys := { s.sys with sent := (enforceMute s).sys.sent }, sluice := { s.sluice with passed := (enforceMute s).sluice.passed } } := by
  unfold enforceMute; split <;> rfl

theorem enforceMute_reports (s : State) : s.sys.reports (enforceMute s).sys := by
  rw [enforceMute_frame]
  exact ⟨rfl, fun _ _ => rfl, ⟨rfl, rfl⟩, fun _ _ => rfl⟩

theorem enforceMute_heron (s : State) : (enforceMute s).heron = s.heron := by rw [enforceMute_frame]
theorem enforceMute_job (s : State) : (enforceMute s).job = s.job := by rw [enforceMute_frame]
theorem enforceMute_time (s : State) : (enforceMute s).time = s.time := by rw [enforceMute_frame]
theorem enforceMute_counters (s : State) : (enforceMute s).sys.counters = s.sys.counters := by rw [enforceMute_frame]

/-- Setting the increment touches its register, or counts the refusal. -/
theorem setIncrement_frame (v : Nat) (s : State) :
    ∃ z : Sys, setIncrement v s = { s with sys := z } ∧ Sys.reports { s.sys with regs := z.regs } z ∧
      (∀ off, off ≠ incrOff → z.reg off = s.sys.reg off) ∧
      ∀ c, c ≠ Cls.TIME_INCR_RANGE → natAt z.counters c = natAt s.sys.counters c := by
  unfold setIncrement
  split
  · exact ⟨_, rfl, Sys.reports_refl, fun off ho => Sys.reg_setReg_ne _ _ ho, fun _ _ => rfl⟩
  · exact ⟨_, rfl, Sys.reports_count _ 1, fun _ _ => rfl, fun c hc => Sys.counter_countN_ne _ _ hc⟩

/-- The time unit on entering a servo state. -/
def TimeUnit.entered (t : TimeUnit) (n : Servo) (now : Nat) : TimeUnit :=
  { t with
    servo := n, lockCount := if n == .locked then t.lockCount else 0,
    timingUnsafe := t.timingUnsafe || n == .free || n == .acquiring || n == .lapsed,
    holdoverStart := if n == .holdover then now else t.holdoverStart, lockedAt := if n == .locked then now else t.lockedAt }

/-- Entering another servo state: the time unit as said, one TIME_STATE, entries, the increment, and the frames a mute cancels. -/
theorem enterServo_frame (s : State) (n : Servo) (hn : s.time.servo ≠ n) :
    let t := enterServo n s
    t = { s with time := t.time, sys := t.sys, sluice := t.sluice } ∧ t.time = s.time.entered n s.sys.now ∧
      t.sluice = { s.sluice with passed := t.sluice.passed } ∧
      Sys.reports { s.sys with regs := t.sys.regs } t.sys ∧ (∀ off, off ≠ incrOff → t.sys.reg off = s.sys.reg off) ∧
      natAt t.sys.counters Cls.TIME_STATE = min counterMax (natAt s.sys.counters Cls.TIME_STATE + 1) := by
  intro t
  obtain ⟨y, hy⟩ : ∃ y, y = s.sys.event Cls.TIME_STATE [(2, 1, n.code), (3, 1, s.time.servo.code), (8, 8, s.sys.now)] := ⟨_, rfl⟩
  have hr : s.sys.reports y := hy ▸ Sys.reports_event _ _
  have hc : natAt y.counters Cls.TIME_STATE = min counterMax (natAt s.sys.counters Cls.TIME_STATE + 1) := by
    rw [hy]; exact Sys.counter_event _ (by decide) _
  have e : t = enforceMute (if ((n == .holdover || n == .lapsed) && s.servoOn) = true
      then setIncrement s.time.freqEstimate.toNat { s with time := s.time.entered n s.sys.now, sys := y }
      else { s with time := s.time.entered n s.sys.now, sys := y }) := by
    show enterServo n s = _
    unfold enterServo
    rw [if_neg (by simpa using hn), hy]
    rfl
  obtain ⟨z, h4, h1, h2, h3⟩ : ∃ z : Sys, t = enforceMute { s with time := s.time.entered n s.sys.now, sys := z } ∧
      Sys.reports { s.sys with regs := z.regs } z ∧ (∀ off, off ≠ incrOff → z.reg off = s.sys.reg off) ∧
      natAt z.counters Cls.TIME_STATE = min counterMax (natAt s.sys.counters Cls.TIME_STATE + 1) := by
    split at e
    · obtain ⟨z, hz, h2, h3, h4⟩ := setIncrement_frame s.time.freqEstimate.toNat { s with time := s.time.entered n s.sys.now, sys := y }
      rw [hz] at e
      exact ⟨z, e, Sys.reports_trans (Sys.reports_setRegs hr z.regs) h2, fun off ho => (h3 off ho).trans (Sys.reports_reg hr off),
        (h4 _ (by decide)).trans hc⟩
    · exact ⟨y, e, Sys.reports_setRegs hr y.regs, fun off _ => Sys.reports_reg hr off, hc⟩
  rw [h4, enforceMute_frame]
  exact ⟨rfl, rfl, rfl, Sys.reports_trans h1 ⟨rfl, fun _ _ => rfl, ⟨rfl, rfl⟩, fun _ _ => rfl⟩, h2, h3⟩

/-! ### Module stop -/

/-- Disabling the rings disables every one of the 18. -/
theorem disableRings_enabled (y : Sys) : ∀ r, r < 18 → ((disableRings y).ring r).enabled = false := by
  have key : ∀ n r, r < n → (((List.range n).foldl (fun (z : Sys) r =>
      (z.setReg (hostqOff r + 8) (putBits (z.regStored (hostqOff r + 8)) 5 1 0)).setRing r { z.ring r with enabled := false }) y).ring
        r).enabled = false := by
    intro n
    induction n with
    | zero => intro r h; omega
    | succ n ih =>
      intro r h
      simp only [List.range_succ, List.foldl_append, List.foldl_cons, List.foldl_nil]
      by_cases e : r = n
      · subst e; rw [Sys.ring_setRing]
      · rw [Sys.ring_setRing_ne _ _ e]
        exact ih r (by omega)
  exact key 18

/-- The stop line establishes module stop. -/
theorem moduleStop_establishes (cause : Nat) (s : State) (h : s.heron.moduleStop = false) :
    let t := moduleStop cause s
    t.stopped = true ∧ t.heron.stopCause = (if s.heron.stopCause = 0 then cause else s.heron.stopCause) ∧
    t.up = false ∧ t.masterOn = false ∧ t.cores = [] ∧ t.job.queue = [] ∧ t.job.cfgQueue = [] ∧ t.downlink.held = [] ∧
    (s.job.active = true ∨ s.job.state = .starting → t.job.state = .faulted) := by
  intro t
  obtain ⟨em, he⟩ : ∃ em, em = enforceMute { s with
      heron := { s.heron with moduleStop := true, stopCause := if s.heron.stopCause = 0 then cause else s.heron.stopCause } } := ⟨_, rfl⟩
  have f1 : em.heron = { s.heron with moduleStop := true, stopCause := if s.heron.stopCause = 0 then cause else s.heron.stopCause } := by
    rw [he, enforceMute_heron]
  have f2 : em.job = s.job := by rw [he, enforceMute_job]
  have e : t = (stopCompute (closeCauseway (assertFault em))).onSys disableRings := by
    rw [he]; simp [t, moduleStop, h]
  have g1 : t.heron.moduleStop = true := by rw [e]; show em.heron.moduleStop = true; rw [f1]
  have g2 : t.heron.stopCause = em.heron.stopCause := by rw [e]; rfl
  refine ⟨?_, ?_, ?_, ?_, ?_, ?_, ?_, ?_, ?_⟩
  · have hr : ∀ r, r < 18 → (t.sys.ring r).enabled = false := by rw [e]; exact disableRings_enabled _
    have hb : t.pins.bypassState = true := by rw [e]; rfl
    have hn : t.pins.faultN = false := by rw [e]; rfl
    simp only [State.stopped, g1, hb, hn, Bool.true_and, Bool.not_false]
    simp only [List.all_eq_true, List.mem_range]
    intro r h; simp [hr r h]
  · rw [g2, f1]
  · simp [State.up, g1]
  · simp [State.masterOn, g1]
  · rw [e]; rfl
  · rw [e]; rfl
  · rw [e]; rfl
  · rw [e]; rfl
  · intro hj
    rw [e]
    show (if (em.job.active || em.job.state == .starting) = true then JobState.faulted else em.job.state) = _
    rw [f2, if_pos (by simpa using hj)]

theorem State.up_running {s : State} (h : s.up = true) : s.heron.moduleStop = false ∧ s.heron.inReset = false ∧ s.heron.powered = true := by
  simp [State.up] at h
  exact ⟨h.2, h.1.2, h.1.1⟩

end Sys2Proof.Machine
end

