-- ==== Sys2Proof/Laws/Records.lean ====
section
/-! SUPPORT. Bytes read back from memory, the slots of a ring, the fields of a fault record, and what a fault record leaves behind. A proof
over `mkRecord` needs `simp -implicitDefEqProofs`: the kernel must not evaluate its powers by unfolding. -/

namespace Sys2Proof.Machine

/-- Bytes that read alike one by one read alike together. -/
theorem Sys.peekN_congr {y z : Sys} : ∀ (n a : Nat), (∀ j, a ≤ j → j < a + n → z.peek j = y.peek j) → z.peekN a n = y.peekN a n
  | 0, _, _ => rfl
  | n + 1, a, h => by
    simp only [Sys.peekN]
    rw [h a (by omega) (by omega), Sys.peekN_congr n (a + 1) fun j h1 h2 => h j (by omega) (by omega)]


/-- What has been stored is read back. -/
theorem Sys.peekN_pokeN (bs : List Byte) : ∀ (y : Sys) (a : Nat), (y.pokeN a bs).peekN a bs.length = bs := by
  induction bs with
  | nil => intro y a; rfl
  | cons b bs ih =>
    intro y a
    simp only [Sys.pokeN, List.length_cons, Sys.peekN]
    rw [ih, Sys.peek_pokeN]
    rw [if_neg (by omega), Sys.peek_poke, if_pos rfl]

/-- Neighbouring slots of a ring of two or more do not overlap. -/
theorem HostRing.slots_apart (h : HostRing) (hs : 2 ≤ h.size) (i : Nat) :
    h.slotAddr i + 32 ≤ h.slotAddr (i + 1) ∨ h.slotAddr (i + 1) + 32 ≤ h.slotAddr i := by
  have : i % h.size ≠ (i + 1) % h.size := by
    intro e
    have h1 := Nat.mod_lt i (by omega : 0 < h.size)
    rw [Nat.add_mod] at e
    have : 1 % h.size = 1 := Nat.mod_eq_of_lt (by omega)
    rw [this] at e
    by_cases c : i % h.size + 1 < h.size
    · rw [Nat.mod_eq_of_lt c] at e; omega
    · have : i % h.size + 1 = h.size := by omega
      rw [this, Nat.mod_self] at e; omega
  unfold HostRing.slotAddr
  omega

/-- A fault record as a sum of its fields. -/
theorem faultRecord_sum (cls unit core tag now d : Nat) :
   (faultRecord cls unit core tag now d).toNat = ((((((0 + cls % 2 ^ (8 * 2) * 2 ^ (8 * 0)) + unit % 2 ^ (8 * 1) * 2 ^ (8 * 2)) + core % 1024 % 2 ^ (8 * 2) * 2 ^ (8 * 4)) +
      tag % 2 ^ (8 * 2) * 2 ^ (8 * 6)) + now % 2 ^ (8 * 8) * 2 ^ (8 * 8)) + (Config.faultDetail cls d).toNat % 2 ^ (8 * 16) * 2 ^ (8 * 16)) % 2^256 := by
  rw [faultRecord, mkRecord, BitVec.toNat_ofNat]
  simp -implicitDefEqProofs only [List.foldl_cons, List.foldl_nil]
/-- The same for fields in range. -/
theorem faultRecord_toNat (cls unit core tag now d : Nat) (h1 : cls < 2^16) (h2 : unit < 2^8) (h3 : core < 1024) (h4 : tag < 2^16) :
   (faultRecord cls unit core tag now d).toNat = cls + unit * 65536 + core * 4294967296 + tag * 2^48 + (now % 2^64) * 2^64 + (Config.faultDetail cls d).toNat * 2^128 := by
  rw [faultRecord_sum]
  have hd := (Config.faultDetail cls d).isLt
  generalize (Config.faultDetail cls d).toNat = k at *
  omega
/-- The fields of a fault record (R34). -/
theorem faultRecord_fields (cls unit core tag now d : Nat) (h1 : cls < 2^16) (h2 : unit < 2^8) (h3 : core < 1024) (h4 : tag < 2^16) :
   let r := faultRecord cls unit core tag now d
   recordField r 0 2 = cls ∧ recordField r 2 1 = unit ∧ recordField r 4 2 = core ∧ recordField r 6 2 = tag ∧
      recordField r 8 8 = now % 2 ^ 64 := by
  intro r
  unfold recordField bitsOf
  show (faultRecord cls unit core tag now d).toNat / _ % _ = _ ∧ (faultRecord cls unit core tag now d).toNat / _ % _ = _ ∧ (faultRecord cls unit core tag now d).toNat / _ % _ = _ ∧ (faultRecord cls unit core tag now d).toNat / _ % _ = _ ∧ (faultRecord cls unit core tag now d).toNat / _ % _ = _
  rw [faultRecord_toNat _ _ _ _ _ _ h1 h2 h3 h4]
  generalize (Config.faultDetail cls d).toNat = k
  have hn := Nat.mod_lt now (by decide : 0 < 2^64)
  generalize now % 2^64 = n at *
  refine ⟨?_, ?_, ?_, ?_, ?_⟩ <;> omega

variable {y : Sys}

/-- A fault record leaves ANY_FAULT set, one more of its class counted, and itself in the log. -/
theorem Sys.fault_leaves (cls unit core tag detail : Nat) (hc : cls ≠ Cls.EVENT_DROP) :
    let r := faultRecord cls unit core tag (y.airCopy (core / 256 % 4)) detail
    let z := y.fault cls unit core tag detail
    z.anyFault = true ∧ natAt z.counters cls = min counterMax (natAt y.counters cls + 1) ∧
      z.logKept = ({ y with anyFault := true }.log r).logKept ∧ z.logRing = ({ y with anyFault := true }.log r).logRing ∧
      z.jobFault = if jobFaultClass cls then (y.jobFault <|> some r) else y.jobFault := by
  intro r z
  have hz : z = Sys.post (if jobFaultClass cls = true
      then { ({ y with anyFault := true }.log r).count cls with jobFault := (({ y with anyFault := true }.log r).jobFault <|> some r) }
      else ({ y with anyFault := true }.log r).count cls) { kind := 1, cls := cls, record := r } := by
    simp only [z, Sys.fault, Sys.faultWith, r]
    rfl
  have hl : (({ y with anyFault := true }.log r).count cls).counters = (y.count cls).counters := by
    simp only [Sys.count, Sys.countN, Sys.log_counters]
  have hv : natAt (y.count cls).counters cls = min counterMax (natAt y.counters cls + 1) := by simp [Sys.count, Sys.countN]
  split at hz <;> rename_i hj <;> rw [hz] <;>
    refine ⟨?_, (Sys.counter_post_ne _ hc _).trans ?_, ?_, ?_, ?_⟩
  all_goals first
    | (rw [← hv, ← hl])
    | simp -implicitDefEqProofs [Sys.count, Sys.countN, hj]

end Sys2Proof.Machine
end

