-- ==== Sys2Proof/WellFormed.lean ====
section
/-! DEFINITION. Well-formed commands: operands within the ranges the manual gives them. `exec` has a meaning for the others too; most of
them change nothing. -/

namespace Sys2Proof

/-- A PCIe access of 1, 2, 4 or 8 bytes; the sizes other than 4 and 8 have an effect of their own (R578). -/
def accessSize (n : BitVec 8) : Bool := [1, 2, 4, 8].contains n.toNat

/-- The fabric runs on ports E (4) and W (5) (R470). -/
def ringPort (p : BitVec 3) : Bool := p.toNat == 4 || p.toNat == 5

/-- Units of each kind that a fence names: cores, decoders, Peats, context slices, LPDDR6 channels (Table 21-3). -/
def fenceUnits (kind : FencedUnit) : Nat :=
  match kind with
  | .core _ => 1024
  | .decoder | .peat | .slice => 64
  | .channel => 16

/-- Instances of a barrier scope: clusters, quarters, the device (R210). -/
def barrierInsts (scope : Nat) : Nat :=
  match scope with
  | 0 => 64
  | 1 => 4
  | 2 => 1
  | _ => 0

/-- Units that hold a scrubbed memory of each kind: cores (command memory, Signal Unit program memory), context slots, decoders. -/
def scrubUnits (kind : Nat) : Nat :=
  match kind with
  | 0 | 1 => 1024
  | 2 => 40960
  | 3 => 64
  | _ => 0

/-- Firmware packets are numbered below 448 (R546). -/
def bootOk (b : BootInputs) : Bool := b.fwLost.all fun e => decide (e.2.2.toNat < 448)

/-- Flipped bits are positions of a 72-bit word (R492). -/
def flipsOk (i : SuIssue) : Bool := i.fetch.all (· < 72) && i.first.all (· < 72) && i.second.all (· < 72)

/-- A CFO estimate lies within ±Rs/8 (Table 03-6), and a refinement of a half-symbol position moves it by a quarter symbol at most. -/
def estOk (e : DetEst) : Bool := decide (e.cfo.natAbs ≤ 1200 * 2 ^ (e.channel.toNat / 2 ^ 14)) && decide (e.refine.natAbs ≤ 4)

/-- Are the operands within their ranges? -/
def Instr.wf : Instr → Bool
  | .powerUp b => bootOk b
  | .modRstN _ _ b => bootOk b
  | .perstN _ => true
  | .computeReset _ b => bootOk b
  | .fwUpdate _ _ => true
  | .recoveryLoad _ _ _ b => bootOk b
  | .keyInstall _ block => decide (block.length = 0x149D)
  | .keyRemove _ block => decide (block.length = 0x149D)
  | .attest _ nonce _ => decide (nonce.length = 32)
  | .identityRead _ _ => true
  | .imageLoad _ _ _ => true
  | .jobStart _ _ => true
  | .jobRunning => true
  | .jobStop _ => true
  | .channelSet _ _ _ => true
  | .paramSet _ _ _ _ _ _ det => decide (det.length = 0 ∨ det.length = 12)
  | .step _ _ _ _ _ => true
  | .adaptEnable _ _ _ => true
  | .adaptDisable _ _ _ => true
  | .adaptResume _ _ _ => true
  | .headRevert _ _ _ => true
  | .headReset _ _ _ => true
  | .jobFault => true
  | .jobRestart => true
  | .ingestClose _ => true
  | .chan _ => true
  | .detect evals hits => evals.all estOk && hits.all estOk
  | .recv _ => true
  | .decode => true
  | .deliver => true
  | .statsCombine => true
  | .combiningPass => true
  | .adaptBlock _ => true
  | .phaseBarrierRelease => true
  | .deadlineReached => true
  | .processingBoundary _ => true
  | .counterFoldIdle => true
  | .softHoldExpiry => true
  | .rollbackWatchCheck _ _ => true
  | .stallCheck => true
  | .fence kind unit => decide (unit.toNat < fenceUnits kind)
  | .decoderFence _ => true
  | .decoderPass _ => true
  | .decoderPassEnd _ _ _ => true
  | .swapEngineServe _ => true
  | .swapInDone slot => decide (slot.toNat < 40960)
  | .spillDone slot => decide (slot.toNat < 40960)
  | .ctxPoison slot => decide (slot.toNat < 40960)
  | .sessionAdd _ _ _ _ _ => true
  | .sessionModify _ _ _ _ _ => true
  | .sessionRemove _ _ => true
  | .timeSample _ _ block => decide (block.length = 64)
  | .sampleTimeout => true
  | .holdoverLimit => true
  | .timingUnsafeClear => true
  | .timeForceGo _ => true
  | .stepMuteEnd => true
  | .timeSnap _ => true
  | .timeIncrWrite _ => true
  | .ppsInEdge _ => true
  | .ppsInLost => true
  | .ppsOutPulse => true
  | .ppsOutEnd => true
  | .doorbell ring _ => decide (ring.toNat < 18)
  | .hostqEnable ring _ => decide (ring.toNat < 18)
  | .submissionFetch _ _ _ _ _ => true
  | .hostRingPhase _ => true
  | .dlCommand ring _ _ _ => decide (ring.toNat < 3)
  | .dlHoldExpiry => true
  | .dlFrameHandover => true
  | .countersDump _ _ _ => true
  | .faultLogDump _ _ _ => true
  | .traceDump _ _ _ => true
  | .ethTx _ _ _ => true
  | .evqHeldWrite => true
  | .coalesceExpiry ring => decide (8 ≤ ring.toNat ∧ ring.toNat < 18)
  | .bar4Access _ size _ _ => accessSize size
  | .registerWrite _ _ size _ => accessSize size
  | .errClear _ => true
  | .traceCtrlWrite _ _ => true
  | .guardMuteClear _ => true
  | .pwrCapWrite _ => true
  | .relinquish => true
  | .take => true
  | .modHeartbeat _ => true
  | .ecpriIqReceive port _ _ => decide (port.toNat < 6)
  | .ecpriDelayRequest port _ _ => decide (port.toNat < 6)
  | .hostFrameReceive port _ _ => decide (port.toNat < 6)
  | .lldpReceive port _ _ => decide (port.toNat < 6)
  | .lldpSend port => decide (port.toNat < 6)
  | .linkLoss port _ => decide (port.toNat < 6)
  | .retrainTimeout port _ => decide (port.toNat < 6)
  | .linkTrained port _ => decide (port.toNat < 6)
  | .laneTrainingAttempt port _ => decide (port.toNat < 6)
  | .fabricTransit port _ => ringPort port
  | .readReq x => ringPort x.port
  | .readResp x => ringPort x.port
  | .write x => ringPort x.port
  | .nack x => ringPort x.port
  | .combine x => ringPort x.port
  | .seqSync x => ringPort x.port
  | .ackOnly x => ringPort x.port
  | .flowAckSend _ => true
  | .retxTimeout _ => true
  | .keepalive port _ => ringPort port
  | .keepaliveSend => true
  | .keepaliveMiss port _ => ringPort port
  | .ringState port _ _ _ _ _ _ => ringPort port
  | .pairHbSend => true
  | .pairHb _ _ _ _ _ => true
  | .pairTakeover => true
  | .causewayClose => true
  | .causewayOpen => true
  | .bypassForce _ => true
  | .sluiceCheck _ => true
  | .sluiceSecond => true
  | .preloadEnd => true
  | .selftestFrame _ => true
  | .clockMonitor _ => true
  | .thermTrip => true
  | .sysclkLost => true
  | .heronLockstep => true
  | .moduleStop cause => decide (1 ≤ cause.toNat ∧ cause.toNat ≤ 6)
  | .railAlarm rail _ _ => decide (rail.toNat ≤ 9)
  | .quarterLost _ => true
  | .tmrCompare upsets => upsets.all fun u => u.shadow || u.off.toNat % 4 == 0
  | .scrubRead storage _ _ => decide (storage.toNat < 1040)
  | .scrubWriteback storage => decide (storage.toNat < 1040)
  | .unitScrub kind unit _ _ => decide (unit.toNat < scrubUnits kind.toNat)
  | .laneSpared _ _ _ _ => true
  | .powerCapControl _ => true
  | .thermalSensorRead _ readings => decide (readings.length = 20)
  | .vddcTargetStep _ _ => true
  | .vddcChangedClear => true
  | .jtagBypass _ b => bootOk b
  | .jtagSamplePreload _ _ b => bootOk b
  | .jtagExtest _ _ => true
  | .jtagIdcode b => bootOk b
  | .seqNop _ => true
  | .seqEnd _ => true
  | .streamComplete _ => true
  | .seqRepeat _ => true
  | .seqCallPatch _ _ => true
  | .seqWait _ => true
  | .seqBarrier _ => true
  | .barrierRelease scope inst _ => decide (inst.toNat < barrierInsts scope.toNat)
  | .seqMark _ => true
  | .rtNop _ => true
  | .rtFill _ => true
  | .rtCopy _ => true
  | .rtSoftmaxRows _ => true
  | .rtDeferFix _ => true
  | .rtQscale _ => true
  | .rtRescale _ => true
  | .rtCrc24 _ => true
  | .rtCrc32Check _ => true
  | .rtHcrc _ => true
  | .rtScramble _ => true
  | .rtLdpcEnc _ => true
  | .rtGfskMod _ => true
  | .rtLabelBits _ => true
  | .rtHeadQuant _ => true
  | .rtCkptSave _ => true
  | .rtCkptRestore _ => true
  | .rtBistSpad _ => true
  | .rtBistArray _ => true
  | .rtCheckerTest _ _ => true
  | .arrLoad _ => true
  | .arrStream _ => true
  | .arrStreamT _ => true
  | .arrClear _ => true
  | .arraySwap _ => true
  | .arrStarve _ _ => true
  | .drainStart _ => true
  | .vecChain _ => true
  | .vecSideadd _ => true
  | .descFill _ => true
  | .descCopy _ => true
  | .descChain _ => true
  | .descCompare _ => true
  | .descPatternWrite _ => true
  | .descPatternCheck _ => true
  | .movGet _ => true
  | .movPut _ => true
  | .movMcast _ => true
  | .movRingFeed _ => true
  | .ringFillStart _ _ => true
  | .ringFillCommit _ _ => true
  | .moverPacketIssue _ queue _ => decide (queue.toNat < 12)
  | .moverReadResponse _ queue _ _ => decide (queue.toNat < 12)
  | .moverWriteAck _ queue => decide (queue.toNat < 4)
  | .sigStart _ => true
  | .sigXfer _ => true
  | .sigIrq _ => true
  | .suInterruptTaken _ => true
  | .suTimeout _ => true
  | .synSet _ => true
  | .synAdd _ => true
  | .synSignal _ => true
  | .signalArrival _ => true
  | .signalDone _ => true
  | .synRingCommit _ => true
  | .synRingRelease _ => true
  | .suNop i => flipsOk i
  | .suLdx i => flipsOk i
  | .suLdy i => flipsOk i
  | .suLdxy i => flipsOk i
  | .suStx i => flipsOk i
  | .suSty i => flipsOk i
  | .suLdx16 i => flipsOk i
  | .suLdy16 i => flipsOk i
  | .suStx16 i => flipsOk i
  | .suLdc i => flipsOk i
  | .suLdxc i => flipsOk i
  | .suMac i => flipsOk i
  | .suMsu i => flipsOk i
  | .suMac2 i => flipsOk i
  | .suCmac i => flipsOk i
  | .suCmacc i => flipsOk i
  | .suCmac2 i => flipsOk i
  | .suCmacd i => flipsOk i
  | .suMpy i => flipsOk i
  | .suCmpy i => flipsOk i
  | .suCmag i => flipsOk i
  | .suAdd i => flipsOk i
  | .suSub i => flipsOk i
  | .suAddw i => flipsOk i
  | .suAdd2 i => flipsOk i
  | .suSub2 i => flipsOk i
  | .suAnd i => flipsOk i
  | .suOr i => flipsOk i
  | .suXor i => flipsOk i
  | .suShr i => flipsOk i
  | .suShl i => flipsOk i
  | .suMin i => flipsOk i
  | .suMax i => flipsOk i
  | .suAbs i => flipsOk i
  | .suNeg i => flipsOk i
  | .suCmp i => flipsOk i
  | .suMovi i => flipsOk i
  | .suMova i => flipsOk i
  | .suMovd i => flipsOk i
  | .suRnd i => flipsOk i
  | .suRndc i => flipsOk i
  | .suAccld i => flipsOk i
  | .suClracc i => flipsOk i
  | .suLoop i => flipsOk i
  | .suLoopd i => flipsOk i
  | .suBra i => flipsOk i
  | .suRti i => flipsOk i
  | .suHalt i => flipsOk i
  | .vauxLost => true
  | .timeUnitTick _ => true
  | .pcieLinkTrained gen width => decide (1 ≤ gen.toNat ∧ gen.toNat ≤ 4 ∧ [1, 2, 4, 8].contains width.toNat)
  | .heronEcc => true
  | .lpddr6Refresh _ => true
  | .flashProgramDone _ => true
  | .dutySumRecomputeDone _ => true

end Sys2Proof
end

