-- ==== Sys2Proof/Tests/Slice0.lean ====
section
/-! SUPPORT. Tests: ill-formed commands that WellFormed refuses, and for each statement with hypotheses states and operands that meet them
together, at the boundary values of its clauses. -/

namespace Sys2Proof.Tests

open Sys2Proof.Machine

set_option Elab.async false

/-! ### WellFormed refuses -/

theorem test_wf_boot_packet : (Instr.powerUp { fwLost := [(0, 0, 448)] }).wf = false := by decide
theorem test_wf_key_block : (Instr.keyInstall 0 []).wf = false := by decide
theorem test_wf_nonce : (Instr.attest 0 [] 0).wf = false := by decide
theorem test_wf_estimates : (Instr.detect [] [{ channel := 0, refine := 17 }]).wf = false := by decide
theorem test_wf_detection_parameters : (Instr.paramSet 0 0 0 0 0 0 [0]).wf = false := by decide
theorem test_wf_fence_peat : (Instr.fence .peat 64).wf = false := by decide
theorem test_wf_fence_unit : (Instr.fence .channel 16).wf = false := by decide
theorem test_wf_context_slot : (Instr.swapInDone 40960).wf = false := by decide
theorem test_wf_time_sample : (Instr.timeSample 0 0 [0]).wf = false := by decide
theorem test_wf_ring : (Instr.doorbell 18 0).wf = false := by decide
theorem test_wf_downlink_ring : (Instr.dlCommand 3 0 [] false).wf = false := by decide
theorem test_wf_completion_ring : (Instr.coalesceExpiry 7).wf = false := by decide
theorem test_wf_access_size : (Instr.registerWrite false 0 3 .read).wf = false := by decide
theorem test_wf_port : (Instr.linkLoss 6 0).wf = false := by decide
theorem test_wf_ring_port : (Instr.ackOnly { port := 3 }).wf = false := by decide
theorem test_wf_stop_cause : (Instr.moduleStop 7).wf = false := by decide
theorem test_wf_rail : (Instr.railAlarm 10 0 []).wf = false := by decide
theorem test_wf_upset_offset : (Instr.tmrCompare [{ off := 2 }]).wf = false := by decide
theorem test_wf_scrub_storage : (Instr.scrubRead 1040 [] []).wf = false := by decide
theorem test_wf_scrub_unit : (Instr.unitScrub 3 64 0 []).wf = false := by decide
theorem test_wf_readings : (Instr.thermalSensorRead 0 []).wf = false := by decide
theorem test_wf_barrier_scope : (Instr.barrierRelease 3 0 0).wf = false := by decide
theorem test_wf_mover_queue : (Instr.moverPacketIssue 0 12 false).wf = false := by decide
theorem test_wf_flip : (Instr.suNop { core := 0, fetch := [72] }).wf = false := by decide
theorem test_wf_link_width : (Instr.pcieLinkTrained 4 3).wf = false := by decide
theorem test_wf_accepts : (Instr.unitScrub 3 63 0 []).wf = true ∧ (Instr.fence .channel 15).wf = true := by decide

/-! ### States -/

/-- A ready module at an air time with register values. -/
def at_ (ns : Nat) (regs : SMap Nat) : State :=
  { State.reset with
    heron := { pcieUp := true, stage := 9 },
    sys := { State.reset.sys with air := BitVec.ofNat 96 (ns * 2 ^ 32), regs := { val := regs }, fences := { released := 0xF } } }

def base : State := at_ 0 []

/-- A ready module whose job is in a state and phase. -/
def inJob (ns : Nat) (regs : SMap Nat) (j : JobState) (p : Phase) : State :=
  { at_ ns regs with job := { state := j, phase := p } }

def stopped : State := match exec (.moduleStop 3) base with | .next t => t | _ => base

/-! ### Reset, gates, module stop, time base -/

theorem witness_not_up : ({ base with heron := { base.heron with powered := false } } : State).up = false ∧
    outside (.timeUnitTick 1) = false := by decide

theorem witness_module_stop_persists :
    let s : State := { stopped with pending := [.decode] }
    s.stopHolds = true ∧ s.pending.all (fun c => !endsStop c) = true ∧ step s = .next stopped := by
  refine ⟨by decide, by decide, rfl⟩

theorem witness_time_registers : base.hostUp = true ∧ (1 : BitVec 32).getLsbD 0 = true ∧
    (at_ 0 [(0x050000, 1)]).hostUp = true ∧ (at_ 0 [(0x050000, 1)]).sys.regField 0x050000 0 1 = 1 ∧
    base.sys.regField 0x050000 0 1 = 0 := by decide

theorem witness_servo_states :
    (let s : State := { at_ 1000000000 [(0x050000, 1)] with time := { servo := .locked } }
     s.up = true ∧ s.sys.regField 0x050000 0 1 = 1 ∧ s.time.servo = .locked ∧ s.time.lastAccepted + 1000000000 ≤ s.sys.now) ∧
    (let s : State := { at_ 1000000000 [(0x050014, 1)] with time := { servo := .holdover } }
     s.up = true ∧ s.time.servo = .holdover ∧ s.time.holdoverStart + s.sys.regField 0x050014 0 17 * 1000000000 ≤ s.sys.now) ∧
    (let s : State := { at_ 1000000000 [] with time := { servo := .locked } }
     s.up = true ∧ s.time.servo = .locked ∧ s.sys.slotOf s.time.lockedAt < s.sys.slotOf s.sys.now) ∧
    base.up = true ∧ base.sluice.muteClock = false := by decide

theorem witness_stop_established : base.up = true ∧ 1 ≤ (6 : BitVec 3).toNat ∧ base.sys.quarterGone 0 = false ∧
    base.job.active = false ∧ (inJob 0 [] .running .chan).job.active = true := by decide

/-- An open EVQ. -/
def evqUp (y : Sys) : Sys := { y with rings := [(16, { enabled := true, base := 4096, log2 := 6 })] }

theorem witness_event_posting :
    ((evqUp base.sys).evqOpen = true ∧ (evqUp base.sys).held = [] ∧ (evqUp base.sys).dropped = 0) ∧
    (base.sys.evqOpen = false ∧ base.sys.heldCount < 1024) := by decide

theorem witness_event_drop :
    let y : Sys := { base.sys with held := List.replicate 1024 {} }
    y.evqOpen = false ∧ 1024 ≤ y.heldCount := by
  refine ⟨by decide, ?_⟩
  simp only [Sys.heldCount, List.filter_replicate, List.length_replicate, Bool.not_false, if_true]
  exact Nat.le_refl _

theorem witness_fault_record : Cls.MEM_UE < 2 ^ 16 ∧ 255 < 2 ^ 8 ∧ 1023 < 1024 ∧ 65535 < 2 ^ 16 ∧ Cls.MEM_UE ≠ Cls.EVENT_DROP ∧
    base.sys.logKept.length < 256 ∧ jobFaultClass Cls.CMD_ECC = true ∧ jobFaultClass Cls.MEM_UE = false := by decide

theorem witness_fault_ring : 256 ≤ (List.replicate 256 (0 : Record)).length := Nat.le_of_eq List.length_replicate.symm

theorem witness_ticks : base.up = true ∧ base.time.forcePending = false ∧
    ({ base with time := { forcePending := true } } : State).time.forcePending = true := by decide

theorem witness_pulse_per_second :
    (let s : State := { at_ 1000000000 [(0x050000, 4)] with time := { timeValid := true } }
     s.up = true ∧ s.sys.regField 0x050000 2 1 = 1 ∧ s.time.timeValid = true ∧ s.pins.ppsOut = false ∧
      s.sys.air.toNat % (1000000000 * 2 ^ 32) < s.sys.increment) ∧
    (let s : State := { at_ 5 [] with time := { ppsOutEnd := some 5, stepMuteEnd := some 5 } }
     s.time.ppsOutEnd = some 5 ∧ 5 ≤ s.sys.now ∧ s.time.stepMuteEnd = some 5) ∧
    (let s := at_ 1500000000 [(0x050000, 2)]
     s.sys.regField 0x050000 1 1 = 1 ∧ s.time.ppsLast.getD 0 + 1500000000 ≤ s.sys.now) ∧
    (true = true ↔ base.sys.regField 0x050000 3 1 = 0) ∧ base.sys.regField 0x050000 1 1 = 0 ∧
    ¬(false = true ↔ base.sys.regField 0x050000 3 1 = 0) := by decide

/-! ### Supply, resets, mailbox -/

theorem witness_full_reset : base.heron.powered = true ∧ 1000000 ≤ 1000000 := by decide

theorem witness_power_on : cleanStart {} ∧ base.jtag.instr ≠ some .extest ∧ base.pins.modRstN = true ∧ base.heron.flashJob = none := by
  refine ⟨by simp [cleanStart], by decide, by decide, by decide⟩

theorem witness_power_on_no_image : fwReason base.heron.fuses base.heron.flash ≠ 0 := by decide

theorem witness_pcie_and_jtag : ({ base with pins := { perstN := true } } : State).up = true ∧ 3 ≤ base.heron.stage ∧
    base.heron.powered = true ∧ base.jtag.instr ≠ some .extest := by decide

def recovering : State := { base with heron := { base.heron with recovery := true, stage := 5 } }

theorem witness_firmware_images :
    (base.hostUp = true ∧ mailboxFree base ∧ base.heron.recovery = false ∧ hostRange 4096 4 = true ∧
      fwReason base.heron.shadow [1, 2, 3, 4] ≠ 0) ∧
    (({ base with heron := { base.heron with flashJob := some [] } } : State).heron.flashJob = some []) ∧
    (recovering.hostUp = true ∧ mailboxFree recovering ∧ recovering.heron.recovery = true ∧ 5 ≤ recovering.heron.stage) := by
  simp only [mailboxFree]; decide

theorem witness_compute_reset :
    let s := inJob 0 [] .running .chan
    s.hostUp = true ∧ mailboxFree s ∧ (0 : Byte).getLsbD 0 = false ∧ s.job.state ≠ .noImage ∧ s.job.state ≠ .starting ∧
      s.job.queue = [] ∧ s.job.cfgQueue = [] := by simp only [mailboxFree]; decide

def keyBlock (slot : Byte) : List Byte := [slot] ++ List.replicate 5276 0

theorem witness_keys : base.hostUp = true ∧ mailboxFree base ∧ base.heron.recovery = false ∧ hostRange 0 0x149D = true ∧
    fieldAt (keyBlock 3) 0 1 ≤ 3 ∧ fieldAt (keyBlock 3) 1 3 = 0 ∧ fieldAt (keyBlock 3) 9 7 = 0 ∧
    fieldAt (keyBlock 3) 4 4 = base.heron.keyEpoch.toNat ∧ hostRange 4096 (0x120 + 4096) = true := by simp only [mailboxFree]; decide

theorem witness_key_refused : fieldAt [0, 0, 0, 0, 1, 0, 0, 0] 4 4 ≠ base.heron.keyEpoch.toNat := by decide

/-! ### Job control -/

/-- A stepped job between two steps, at slot 0. -/
def halted : State :=
  { inJob 0 [(0x080000, 2)] .running .done with job := { state := .running, phase := .done, mode := 2 } }

/-- The bytes of an image that lists the head group of air class 0 and group 0 for adaptation. -/
def adaptImage : List Host.Cell :=
  [(0x140000026, 1), (0x140000029, 1), (0x140000100, 11), (0x140000109, 2), (0x140000216, 1)]

def withAdapt (s : State) : State := { s with sys := { s.sys with mem := adaptImage }, image := { present := true } }

theorem witness_job_commands_wait :
    let s := inJob 0 [] .running .chan
    s.ready = true ∧ s.job.active = true ∧ s.halted = false := by decide

theorem witness_reads_now : readsNow base ∧ readsNow halted := by
  simp only [readsNow]; decide

theorem witness_image_load : readsNow base ∧ base.job.state = .noImage ∧ hostRange 4096 1 = true ∧
    imageCheck (withCandidate [1] base) 1 ≠ 0 := by
  simp only [readsNow]; decide

theorem witness_job_start :
    let s := inJob 0 [] .ready .ingest
    (readsNow s ∧ (s.job.state = .ready ∨ s.job.state = .faulted)) ∧
      ¬(s.setupOk = true ∧ channelsOk s s.job.channels = true ∧ (replayStart s []).1 = true) := by
  simp only [readsNow]; decide

theorem witness_job_restart :
    let s : State := { inJob 0 [] .faulted .ingest with job := { state := .faulted, restartEvent := true } }
    s.up = true ∧ s.job.state = .faulted ∧ s.job.restartEvent = true ∧ s.job.schedule = [] := by decide

theorem witness_job_running :
    let s := inJob 0 [] .starting .ingest
    s.up = true ∧ s.job.state = .starting ∧ s.sys.jobFault = none ∧ s.job.replayActive = false ∧ s.stepped = false := by decide

theorem witness_job_stop : readsNow halted ∧ halted.halted = true ∧ halted.job.state = .running := by
  simp only [readsNow]; decide

theorem witness_job_fault :
    let s := inJob 0 [] .running .chan
    let t : State := { s with sys := { s.sys with jobFault := some 0 } }
    t.up = true ∧ t.sys.jobFault = some 0 ∧ t.job.active = true ∧ t.job.queue = [] ∧ t.job.cfgQueue = [] := by decide

theorem witness_channel_set : readsNow halted ∧ halted.halted = true ∧ hostRange 4096 (8 * ([] : List (BitVec 64)).length) = true ∧
    channelsOk halted (([] : List (BitVec 64)).map parseChannel) = true ∧
    channelsOk halted (([0] : List (BitVec 64)).map parseChannel) = false := by
  simp only [readsNow]; decide

theorem witness_param_set : halted.job.state = .running ∧
    (deadlinesOk halted.sys.slotLen 700 100 560 && softHoldOk 10 && (List.range 12).all fun a => detOk (mapGet detDefault a halted.job.det)) = true ∧
    deadlinesOk halted.sys.slotLen 0xFFFF 100 560 = false := by decide

theorem witness_step :
    (readsNow halted ∧ halted.halted = true ∧ halted.job.state = .running ∧ halted.job.replayActive = false ∧
      hostRange 0 (4 * (([] : List (BitVec 20)).length + ([] : List (BitVec 20)).length)) = true ∧
      halted.job.noAckBefore ≤ (0 : BitVec 48).toNat * halted.sys.slotLen ∧ halted.job.lastStep = none ∧
      halted.rx.next ≤ (0 : BitVec 48).toNat) ∧
    (let s : State := { halted with job := { halted.job with lastStep := some 3 }, rx := { next := 9 } }
     readsNow s ∧ s.job.lastStep = some 3 ∧ (3 : BitVec 48).toNat ≤ 3 ∧ 3 < (8 : BitVec 48).toNat ∧ (8 : BitVec 48).toNat < s.rx.next ∧
      s.rx.slots.contains 8 = false) := by
  simp only [readsNow]; decide

theorem witness_head_commands :
    let s := withAdapt halted
    let t : State := { s with adapt := { groups := [(0, { previous := some {} })] } }
    readsNow t ∧ t.halted = true ∧ t.job.state = .running ∧ (0 : Byte).toNat < 12 ∧ t.listedGroups.contains (adaptKey 0 0) = true ∧
      (t.headGroup (adaptKey 0 0)).previous = some {} ∧ t.listedGroups.contains (adaptKey 11 15) = false := by
  simp only [readsNow]; decide

/-- A running job in its slack time, with a candidate of the group of air class 0 and group 0. -/
def adaptingWith (c : Candidate) : State :=
  let s := withAdapt (inJob 0 [] .running .combine)
  { s with job := { s.job with worked := true }, adapt := { groups := [(0, { candidate := some c })] } }

theorem witness_adapt_block :
    (∀ c ∈ [({} : Candidate), { trained := true }],
      let t := adaptingWith c
      t.up = true ∧ t.slackFor 5000 = true ∧ t.adapting (adaptKey 0 0) = true ∧ (t.headGroup (adaptKey 0 0)).candidate = some c ∧
        t.sys.headPoisoned (adaptKey 0 0) .candidate = false ∧
        t.adaptParam 0x14 1 ≤ (c.heldSet.getD (t.headGroup (adaptKey 0 0)).held).length ∧ c.validated = none ∧
        c.steps + 0 = t.adaptParam 6 2) ∧ ({ airClass := 0, group := 0, refNs := 5000, poison := true } : AdaptBlock).poison = true := by
  decide +kernel

theorem witness_adapt_steps :
    let s := withAdapt (inJob 0 [] .running .combine)
    let t : State := { s with sys := { s.sys with mem := adaptImage.take 4 ++ [(0x140000206, 2), (0x140000216, 1)] } }
    0 + 1 < t.adaptParam 6 2 := by decide

theorem witness_watch :
    let s : State := { at_ 1000000000 [] with adapt := { groups := [(0, { watch := some { baseAll := 1 } })] } }
    (s.headGroup (adaptKey 0 0)).watch = some { baseAll := 1 } ∧ 0 < (s.sys.now - 0) / 1000000000 := by decide

/-! ### The slot -/

theorem witness_phases :
    (∀ p ∈ [Phase.chan, .detect, .recv, .decode, .deliver],
      let s := inJob 0 [] .running p
      s.up = true ∧ s.job.phase = p ∧ s.job.worked = false) ∧
    (inJob 0 [] .running .ingest).job.phase ≠ .chan := by decide

/-- A slot whose DETECT looks at one channel with the lowest thresholds. -/
def detecting : State :=
  { inJob 0 [] .running .detect with
    job := { state := .running, phase := .detect, channels := [{}], det := [(0, { thresh := 0, snrMin := 0, hold := 1 })] },
    rx := { noiseFloor := [(0, 1)] } }

theorem witness_detect :
    let s := detecting
    let c : Channel := {}
    let u := scaleStep c 0 (afterSamples c (estOf [] c) 0 s)
    s.up = true ∧ s.job.phase = .detect ∧ s.job.worked = false ∧ s.job.channels = [c] ∧ (s.slotSamples c.id)[0]? = some 0 ∧
      (∀ b ∈ s.rx.bursts, b.handle ≠ s.rx.nextHandle) ∧ u.channelBursts c.id = [] ∧
      (s.detParams c.airClass).thresh * (u.metric c 0).2 ≤ 100 * (u.metric c 0).1 ∧
      u.floorOf c.id ^ 20 * 10 ^ (s.detParams c.airClass).snrMin ≤ u.groupPower c 0 ^ 20 ∧
      (s.detParams c.airClass).hold ≤ natAt u.rx.holdCount c.id.toNat + 1 ∧ s.lastSample c.id < 0 + 96 := by
  refine ⟨by decide, by decide, by decide, by decide, by decide +kernel, by decide, by decide +kernel, ?_, by decide +kernel,
    by decide +kernel, by decide +kernel⟩
  rw [show (detecting.detParams ({} : Channel).airClass).thresh = 0 by decide, Nat.zero_mul]
  exact Nat.zero_le _

theorem witness_recv_fallback :
    let s : State := { inJob 0 [] .running .recv with
      job := { state := .running, phase := .recv, fallback := true }, rx := { bursts := [{ handle := 1, state := .synced }] } }
    s.job.fallback = true ∧ s.burst 1 = some { handle := 1, state := .synced } := by decide

theorem witness_ingest :
    let s := inJob 1100000 [] .running .ingest
    s.up = true ∧ s.job.active = true ∧ (s.rx.next + 1) * s.sys.slotLen + s.job.fhMaxDelay * 1000 ≤ s.sys.now := by decide

theorem witness_barrier :
    let s : State := { inJob 0 [] .running .chan with job := { state := .running, phase := .chan, worked := true } }
    s.job.worked = true ∧ s.job.phase.streamIndex.isSome = true ∧ s.streamsDone = true ∧ s.swapInsHold = false := by decide +kernel

theorem witness_combining :
    let s : State := { inJob 1560000 [] .running .combine with rx := { bursts := [{ state := .closed }] } }
    s.job.phase = .combine ∧ s.job.worked = false ∧ s.slotEnd + s.job.combineWait * 1000 ≤ s.sys.now ∧ s.toCombine = true ∧
      s.sys.jobFault = none := by decide

theorem witness_deadline :
    let s := inJob 1700000 [] .running .deliver
    s.job.phase ≠ .done ∧ s.slotEnd + s.job.deadline * 1000 ≤ s.sys.now := by decide

theorem witness_boundary :
    (∀ st ∈ [JobState.running, .stopping],
      let s := inJob 1560000 [] st .combine
      s.up = true ∧ s.job.phase = .combine ∧ s.sys.jobFault = none ∧ s.sys.weightPoison = false ∧ s.comp.sideRecord = none ∧
        s.job.queue = [] ∧ s.job.cfgQueue = [] ∧ s.job.replayActive = false ∧ s.job.restartAt = none ∧ s.job.stopQuiet = false ∧
        s.slotEnd + s.job.combineWait * 1000 ≤ s.sys.now ∧ s.toCombine = false ∧ s.stepped = false) := by decide

theorem witness_idle : base.up = true ∧ base.job.active = false ∧ natAt base.sys.counters 0 ≤ counterMax := by decide

theorem witness_stall :
    let s : State := { inJob 10000 [] .running .chan with comp := { quietSince := some 0 } }
    s.up = true ∧ s.job.active = true ∧ s.sys.jobFault = none ∧ s.comp.quietSince = some 0 ∧ 0 + 10000 ≤ s.sys.now ∧
      s.comp.lastEvent + 10000 ≤ s.sys.now ∧ (s.jobCores.any s.isActive) = false := by decide +kernel

/-! ### Fences, decoders, contexts, sessions -/

theorem witness_fences : base.up = true ∧ base.sys.decoderFenced 63 = false ∧
    (let s : State := { base with sys := { base.sys with fences := { base.sys.fences with decoder := [(63, 3)] } } }
     s.sys.decoderFenced 63 = true) := by decide

theorem witness_decoder_pass :
    let s : State := { base with decoders := [(0, { queue := [{}] })] }
    s.job.phase ≠ .decode ∧ s.sys.decoderFenced 0 = false ∧ (s.decoder 0).pass = none ∧ (s.decoder 0).queue = [{}] := by decide

theorem witness_decoder_pass_end :
    ({ base with decoders := [(0, { pass := some {} })] } : State).decoder 0 = { pass := some {} } := by decide

theorem witness_swap_in :
    let r : SwapRequest := { shortId := 0 }
    let s : State := { base with sessions := { requests := [r] } }
    natAt s.sessions.inFlight 0 < 8 ∧ s.sessions.requests = [r] ∧ r.slot = none ∧ sliceOf s.job.qset r.shortId.toNat = 0 ∧
      flagAt s.sessions.lostSessions r.shortId.toNat = false ∧ (s.sys.repairRecord r.shortId.toNat).recordLost r.shortId.toNat = false ∧
      (slotsOfSlice 0).head? = some 0 ∧ s.sys.ctxState 0 = ctxFree ∧ s.sessionSlot 0 = none := by decide +kernel

/-- A context slot in a state. -/
def slotState (v : Byte) : State := { base with sys := { base.sys with mem := [(contextBase 0 + 2, v)] } }

theorem witness_context_transfers :
    (slotState 0x40).sys.poisoned (contextBase 0) 256 = false ∧
    (slotState 0x10).up = true ∧ (slotState 0x10).sys.ctxState 0 = ctxLoading ∧ (slotState 0x40).sys.ctxState 0 = ctxSpilling ∧
      (slotState 0x10).sessions.deferred = [] ∧ (slotState 0x10).downlink.recent = [] := by decide

theorem witness_context_poison :
    let s : State := { slotState 0x20 with sys := { (slotState 0x20).sys with poison := [(contextBase 0, true)] } }
    s.sys.poisoned (contextBase 0) 256 = true ∧ s.sys.ctxState 0 = ctxIdle := by decide +kernel

theorem witness_spill_poison :
    let s : State := { slotState 0x40 with sys := { (slotState 0x40).sys with poison := [(contextBase 0, true)] } }
    s.sys.poisoned (contextBase 0) 256 = true ∧ s.sys.ctxState 0 = ctxSpilling ∧ s.sessions.deferred = [] ∧
      s.openBurst (BitVec.ofNat 20 (s.sys.ctxSession 0)) = none := by decide +kernel

/-- A module without a job that holds the record of short ID 0. -/
def withRecord (s : State) : State := { s with sys := { s.sys with mem := [(recordPrimary 0 + 3, 0x80)] } }

theorem witness_sessions :
    readsNow base ∧ base.job.active = false ∧ (0 : BitVec 32).toNat < 2 ^ 20 ∧ (63 : Byte).toNat < 64 ∧ (7 : Byte).toNat ≤ 7 ∧
      base.sys.registered 0 = false ∧ readsNow (withRecord base) ∧ (withRecord base).sys.registered 0 = true := by
  simp only [readsNow]; decide

theorem witness_session_slot : (withRecord base).sessionSlot 0 = none := by decide +kernel

theorem witness_time_sample :
    (let b : List Byte := List.replicate 64 0
     hostRange 0 64 = true ∧ fieldAt b 0 1 = 0 ∧ fieldAt b 2 1 = base.time.stepGen.toNat ∧ fieldAt b 3 1 = base.time.stepGen.toNat ∧
      base.sys.now ≤ fieldAt b 0x10 8 + 2000000000 ∧ base.time.sampleCount < 128 ∧ base.sys.regField 0x050000 1 1 = 0) ∧
    fieldAt [0, 0, 1] 2 1 ≠ base.time.stepGen.toNat := by decide

/-! ### Host rings, dumps, downlink, registers -/

theorem witness_doorbell :
    base.hostUp = true ∧ (17 : BitVec 5).toNat < 18 ∧ base.job.lock = false ∧ (base.sys.ring 17).enabled = false ∧
    ((base.sys.setRing 0 { enabled := true }).ring 0).enabled = true ∧ (0x20 : BitVec 32).getLsbD 5 = true ∧
    ¬(6 ≤ (0x20 : BitVec 32).toNat % 32 ∧ (0x20 : BitVec 32).toNat % 32 ≤ 16) ∧ 6 ≤ (0x30 : BitVec 32).toNat % 32 ∧
    (0x30 : BitVec 32).toNat % 32 ≤ 16 ∧ base.sys.reg (hostqOff 16) % 4096 = 0 ∧
    hostRange (base.sys.reg (hostqOff 16)) (32 * 2 ^ 16) = true := by decide

theorem witness_submission :
    (∀ r ∈ [0, 5, 6, 7],
      let s : State := { base with sys := { base.sys with rings := [(r, { enabled := true, hostPos := 1 })] } }
      s.ready = true ∧ (s.sys.ring r).pending = true ∧ s.sys.takesSubmissions = true ∧ s.sys.dlqBefore r = false ∧
        s.downlink.held.length < 16384 ∧ (s.sys.ring r).phase = true ∧ (s.sys.ring r).modPos < 65536) ∧
    slotField 0x103 1 1 % 2 = 1 ∧ slotField 0x103 0 1 = 0x03 ∧ slotField 0x106 0 1 = 0x06 ∧ slotField 0x106 10 2 = 0 ∧ slotField 0x122 0 1 = 0x22 ∧
    slotField 0x140 0 1 = 0x40 ∧ slotField 0x150 0 1 = 0x50 ∧ slotField 0x130 0 1 = 0x30 := by decide

theorem witness_ring_phase :
    let s : State := { at_ 100000 [] with
      sys := { (at_ 100000 []).sys with rings := [(0, { enabled := true, waitSince := some 0 })] } }
    s.hostUp = true ∧ (s.sys.ring 0).enabled = true ∧ (s.sys.ring 0).stopped = false ∧ (s.sys.ring 0).waitSince = some 0 ∧
      0 + 100000 ≤ s.sys.now := by decide

theorem witness_coalesce :
    let s : State := { base with sys := { base.sys with rings := [(8, { enabled := true, unsigSince := some 0 })] } }
    (s.sys.ring 8).enabled = true ∧ (s.sys.ring 8).unsigSince = some 0 ∧ 0 + (s.sys.ring 8).coalesce * 1000 ≤ s.sys.now ∧
      s.sys.msixMasked (s.sys.ring 8).vector = false := by decide

theorem witness_coalesce_masked : ({ base.sys with msixTable := [(3, 1)] } : Sys).msixMasked 0 = true := by decide

theorem witness_dumps : hostRange 0 6144 = true ∧ hostRange (2 ^ 64 - 1) 2 = false ∧ base.sys.outsideEvq (hostBase + 2 ^ 20) = true := by decide

/-- A DL_COMMAND slot for short ID 0: anchored with HOLD 1 s, one byte of payload. -/
def anchoredSlot : BitVec 256 := BitVec.ofNat 256 (0x30 + 5 * 2 ^ 8 + 2 ^ 160)

theorem witness_downlink :
    let s := withRecord (inJob 0 [] .running .chan)
    s.ready = true ∧ s.downlink.held.length < 16384 ∧ s.job.state = .running ∧ base.job.state ≠ .running ∧
      dlFieldsOk anchoredSlot s = true ∧ dlFieldsOk 0 s = false ∧ (slotField anchoredSlot 1 1).testBit 2 = true ∧
      frameCrc32 0 [0] ≠ fieldAt [0] 1 4 := by decide +kernel

theorem witness_downlink_crc :
    let b : List Byte := 0 :: natToBytes 4 (frameCrc32 0 [0])
    frameCrc32 0 ((List.range 1).map fun i => b.getD i 0) = fieldAt b 1 4 := by decide +kernel

theorem witness_downlink_absolute :
    let s : State := { withRecord (inJob 0 [] .running .chan) with job := { state := .running, channels := [{}] } }
    dlFieldsOk (BitVec.ofNat 256 (0x30 + 2 ^ 8)) s = true ∧
      extendEntry s.sys.now 0 < ((s.sys.slotOf s.sys.now + 2) * s.sys.slotLen : Nat) ∧
      ¬ extendEntry s.sys.now 3000000 < ((s.sys.slotOf s.sys.now + 2) * s.sys.slotLen : Nat) := by decide

theorem witness_frame_due :
    due base {} ∧ ¬ due base { anchored := true } ∧ base.up = true := by
  simp only [due]; decide

theorem witness_register_rows :
    base.hostUp = true ∧ findReg 0x080020 = some (0x080020, 4, ((findReg 0x080020).getD (0, 0, [])).2.2) ∧
    findReg 0x050000 = some (0x050000, 4, ((findReg 0x050000).getD (0, 0, [])).2.2) := by decide

theorem witness_named_writes :
    base.hostUp = true ∧ (1 : BitVec 32).getLsbD 0 = true ∧ (inJob 0 [] .running .chan).job.active = true ∧
    ({ base with net := { role := 2 } } : State).net.role = 2 ∧ ({ base with net := { role := 1 } } : State).net.roleNext ≠ some 2 := by decide

theorem witness_mailbox_go :
    let s := at_ 0 [(0x010000, 7)]
    s.hostUp = true ∧ mailboxFree s ∧ (1 : BitVec 64).getLsbD 0 = true ∧ 1 ≤ s.sys.regField 0x010000 0 8 ∧ s.sys.regField 0x010000 0 8 ≤ 7 := by
  simp only [mailboxFree]; decide

theorem witness_pair_on : (at_ 0 [(0x0B0018, 1)]).sys.pairOn = true := by decide

theorem witness_bar4 : base.hostUp = true ∧ base.job.lock = false ∧ base.sys.localFault (base.sys.bar4Addr 0) = none ∧
    ({ base with job := { lock := true } } : State).job.lock = true := by decide

theorem witness_eth_tx :
    let f := slotField (BitVec.ofNat 256 (0x50 + 7 * 2 ^ 8 + 60 * 2 ^ 48 + 50 * 2 ^ 64))
    f 4 1 ≤ 5 ∧ (List.replicate 60 (0 : Byte)).length = f 6 2 ∧ 60 ≤ f 6 2 ∧ f 6 2 ≤ 9216 ∧ hostRange (f 16 8) (f 6 2) = true ∧
      (f 1 1).testBit 2 = true ∧ f 8 2 + 10 ≤ f 6 2 ∧ (f 1 1).testBit 1 = true := by decide

/-! ### Ethernet, fabric, pair -/

/-- A module whose ports are all up and whose registers have the given values. -/
def linked (ns : Nat) (regs : SMap Nat) : State :=
  { at_ ns regs with net := { ports := (List.range 6).map fun p => (p, { up := true }) } }

theorem witness_fronthaul :
    let s : State := { linked 0 [(0x040108, 0x10001)] with job := { state := .running } }
    let msg : List Byte := List.replicate 20 0
    let m : List Byte := (msg.set 2 0x00).set 3 0x80
    (s.net.port 0).up = true ∧ s.sys.ruOf 0 = some 0 ∧ (beAt m 2 2).testBit 7 = true ∧ beAt m 0 2 / 256 = bitsOf (s.sys.reg 0x040108) 8 8 ∧
      (beAt m 0 2).testBit 7 = false ∧ (s.sys.reg 0x040108).testBit 16 = true ∧ (beAt msg 2 2).testBit 7 = false ∧
      1 < beAt (m.set 11 2) 11 1 ∧ beAt (m.set 13 1) 12 2 = 1 ∧ (m.set 13 1).length = 16 + 4 * 1 ∧
      extendSlot (s.sys.slotOf s.sys.now) (beAt m 4 4) = 0 ∧ 0 + 1 ≤ s.sys.streamSamples ∧ s.sys.fhTag = none := by decide

theorem witness_fronthaul_order :
    extendSlot 9 2 < (3 : Int) ∧ (3 : Int) + 1 < extendSlot 9 5 := by decide

theorem witness_host_frame :
    let s := linked 0 []
    s.sys.classify 0 (2 :: List.replicate 59 0) = .filtered ∧ s.sys.classify 0 (List.replicate 12 0 ++ [0x88, 0xF7] ++ List.replicate 46 0) = .host ∧
      (s.sys.ring 17).enabled = false ∧ ({ enabled := true, modPos := 63 } : HostRing).free = 0 ∧
      (({ s with sys := { s.sys with rings := [(17, { enabled := true, hostPos := 1, rxLog2 := 11 })] } } : State).sys.ring 17).enabled = true := by
  decide

theorem witness_host_buffers :
    let h : HostRing := { enabled := true, modPos := 0, hostPos := 0 }
    0 < h.free ∧ 2048 < (List.replicate 2049 (0 : Byte)).length := by
  refine ⟨by decide, ?_⟩
  rw [List.length_replicate]; decide

theorem witness_links :
    (8 ≤ base.heron.stage ∧ base.sys.capped = false ∧ (base.net.port 0).up = false ∧ (base.net.port 0).retrainUntil = none ∧
      portLanes base.sys.portMode 0 ≠ [] ∧ ∀ l ∈ portLanes base.sys.portMode 0, (0xFF : BitVec 8).getLsbD l = true ∧ base.laneUsable l = true) ∧
    (at_ 0 [(0x090000, 1)]).sys.capped = true ∧ ((linked 0 []).net.port 5).up = true ∧
    (let s : State := { base with net := { ports := [(0, { retrainUntil := some 0 })] } }
     (s.net.port 0).retrainUntil = some 0 ∧ 0 ≤ s.sys.now) ∧
    (({ base with power := { base.power with lastAttempt := [(0, 0)] } } : State).power.lastAttempt = [(0, 0)]) := by decide

/-- A ready node 0 of a fabric with node 1 beside it. -/
def fabric (ns : Nat) : State := linked ns [(0x0B0000, 2 ^ 6), (0x0B0018, 1), (0x0B0040, 0x100)]

theorem witness_discovery :
    (fabric 0).sys.fabricOn = true ∧ (fabric 0).sys.node = 0 ∧ ((fabric 0).net.port 4).up = true ∧ (0 : Nat) ≠ bitsOf 0x01050100 8 8 ∧
    (let b (i : Nat) : Nat := bitsOf 0x01050100 (8 * i) 8
     b 0 = (fabric 0).sys.fabricId ∧ b 1 = 1 ∧ ¬ 64 ≤ b 1 ∧ (fabric 0).sys.ringPlace (b 1) ≠ none ∧ b 3 = (fabric 0).sys.ringIndex (b 1) ∧ b 1 / 32 % 2 = (fabric 0).sys.node / 32 ∧ b 2 = 9 - 4) := by decide

/-- A sound packet of node 1 with acknowledgement of nothing new. -/
def packet (addr : BitVec 64) (body : List Byte) : FabricRx := { port := 4, src := 1, ack := 0xFFFFFFFF, addr := addr, body := body }

theorem witness_arrives : (fabric 0).up = true ∧ arrives (packet 0 []) (fabric 0) := by
  simp only [arrives]; decide

theorem witness_remote_memory :
    let s : State := { fabric 0 with job := { state := .running } }
    s.nackReason 0 1 = none ∧ regionOf 0 ≠ .control ∧ s.sys.ctxMoving 0 1 = false ∧ (fabric 0).nackReason 0 1 = some 3 ∧
      beAt [0, 0, 0x10, 0] 0 4 = 4096 := by decide

theorem witness_remote_request :
    let r : RemoteRequest := { id := 5, node := 1, read := true, core := 0 }
    let s : State := { fabric 0 with net := { (fabric 0).net with requests := [r] }, cores := [(0, { packets := [{ remote := some 5 }] })] }
    s.net.requests = [r] ∧ r.node = (packet 0 []).src.toNat ∧ r.id % 2 ^ 32 = (5 : BitVec 32).toNat ∧
      (s.core r.core).packets = [{ remote := some 5 }] := by decide

theorem witness_flows :
    let s : State := { fabric 40000 with net := { (fabric 40000).net with flows := [(1, { owed := some 0, unacked := [(0, {})], tries := 6 })] } }
    ((fabric 0).net.flow 1).unacked = [] ∧ (1 : BitVec 32) ≠ ((fabric 0).net.flow 1).expect ∧ (s.net.flow 1).owed.isSome = true ∧
      (s.net.flow 1).unacked ≠ [] ∧ (s.net.flow 1).since + 40000 ≤ s.sys.now ∧ 6 ≤ (s.net.flow 1).tries ∧ s.net.requests = [] ∧
      (s.net.flow 1).waiting = [] := by decide

theorem witness_route : ({ linked 0 [(0x0B0000, 2 ^ 6), (0x0B0088, 2 ^ 63)] with job := {} } : State).route 1 = some (0, 0) := by decide

theorem witness_combine_times :
    let s : State := { fabric 1600000 with job := { state := .running } }
    s.job.active = true ∧ s.rx.refusedCombine = [] ∧ s.rx.contributions = [] ∧ s.rx.bursts = [] ∧ s.rx.seen = [] ∧
      (s.sys.slotOf (beAt (List.replicate 32 0) 16 8) + 1) * s.sys.slotLen + s.job.combineWait * 1000 ≤ s.sys.now ∧
      ¬ (s.sys.slotOf (beAt (List.replicate 32 0) 16 8) + 1) * s.sys.slotLen + s.job.combineWait * 1000 ≤ (fabric 0).sys.now := by decide

theorem witness_seq_sync :
    let s := withRecord (linked 0 [(0x0B0000, 2 ^ 6), (0x0B0018, 1)])
    s.sys.pairOn = true ∧ s.sys.partner = 32 ∧ s.sys.registered 0 = true ∧ (32 : BitVec 6).toNat = 32 := by decide

theorem witness_transit : ((fabric 0).net.port 4).up = true ∧ ((fabric 0).net.port 5).up = true ∧
    ({ fabric 0 with pins := { bypassState := false } } : State).pins.bypassState = false ∧ (fabric 0).net.dupNode = false := by decide

theorem witness_pair :
    (let s := linked 0 [(0x0B0000, 2 ^ 6), (0x0B0018, 1), (0x0B0180, 2 ^ 63)]
     s.sys.switched s.sys.partner = some (0, 0) ∧ (s.net.port 0).up = true ∧ s.job.active = false) ∧
    (let s : State := { fabric 3000000 with net := { (fabric 0).net with role := 1, partnerSlot := some 0 }, job := { state := .running } }
     s.sys.pairOn = true ∧ s.net.partnerSlot = some 0 ∧ s.net.role = 1 ∧ 0 + 3 ≤ s.sys.slotOf s.sys.now) ∧
    (0 : Byte).getLsbD 2 = false ∧ (0 : Byte).getLsbD 3 = false := by decide

theorem witness_may_take : ({ inJob 0 [] .running .chan with time := { timingUnsafe := false } } : State).mayTake = true ∧
    base.mayTake = false := by decide

theorem witness_causeway :
    base.heron.powered = true ∧ base.heron.inReset = false ∧ base.heron.recovery = false ∧ base.heron.moduleStop = false ∧
    base.pins.bypassForce = false ∧ ({ fabric 0 with net := { ringPowered := true } } : State).net.ringPowered = true ∧ 8 ≤ (fabric 0).heron.stage ∧
    (fabric 0).sys.fabricOn = true := by decide

/-! ### The Sluice -/

/-- A frame of one bin that starts at `start`, handed to an idle Sluice. -/
def handedFrame (channel : BitVec 16) (start : Nat) : HandedFrame := { desc := { channel := channel, width := 1, start := start }, body := List.replicate 5 0 }

theorem witness_sluice :
    let s : State := { base with downlink := { handed := [handedFrame 0 200000] } }
    s.up = true ∧ s.downlink.handed = [handedFrame 0 200000] ∧ 0 < (handedFrame 0 200000).desc.width ∧ s.muted = true := by decide

/-- A module whose Sluice lets one bin transmit. -/
def transmitting : State :=
  { at_ 0 [(0x060000, 1), (0x060100, 2 ^ 31 + 0xFFFF * 2 ^ 32 + 1023 * 2 ^ 48), (0x060108, 0xFFFFF)] with
    time := { timingUnsafe := false }, downlink := { handed := [handedFrame 0 200000] } }

/-- Every sample of a frame changed to zero on its way. -/
def allZero : SluiceIn := { changed := (List.range (handedFrame 0 200000).samples.length).map fun k => (k, 0, 0) }

theorem test_samples_of_frame :
    (handedFrame 0 200000).samples.length = downlinkSamples (downlinkDataSymbols (profileOf 0) 1) := by
  simp only [HandedFrame.samples, emittedSamples, signalSamples, List.length_map, List.length_range, List.length_append, List.length_replicate]
  decide +kernel

theorem test_received_zero : (handedFrame 0 200000).received allZero =
    List.replicate (downlinkSamples (downlinkDataSymbols (profileOf 0) 1)) (0, 0) := by
  rw [HandedFrame.received, ← test_samples_of_frame]
  refine List.eq_replicate_iff.2 ⟨by simp [allZero], fun b hb => ?_⟩
  obtain ⟨k, hk, rfl⟩ := List.mem_map.1 hb
  simp only [allZero, Nat.sub_zero] at hk ⊢
  split
  · rename_i e he
    obtain ⟨j, -, rfl⟩ := List.mem_map.1 (List.mem_of_find?_eq_some he)
    rfl
  · rename_i he
    exact absurd (beq_self_eq_true k) (List.find?_eq_none.1 he (k, 0, 0) (List.mem_map.2 ⟨k, hk, rfl⟩))

theorem witness_sluice_passes :
    sluicePasses transmitting (handedFrame 0 200000).desc ((handedFrame 0 200000).received allZero) false := by
  rw [test_received_zero]
  refine ⟨by decide, by decide, by decide, List.length_replicate, by decide, by decide, ?_, by decide +kernel, 0, by decide, by decide +kernel,
    by decide +kernel, by decide⟩
  intro p h
  cases h

theorem witness_sluice_time :
    (let s : State := { base with sluice := { released := true, accum := 1000000000 * 2 ^ 32, preloadActive := true, seconds := 3600, blocked := [(8191, true)] } }
     s.sluice.released = true ∧ 1000000000 * 2 ^ 32 ≤ s.sluice.accum ∧ s.sluice.preloadActive = true ∧ 3600 ≤ s.sluice.seconds ∧
      flagAt s.sluice.blocked (8191 : BitVec 13).toNat = true) ∧
    (let s : State := { at_ 1000000000 [] with sluice := { released := true } }
     s.sluice.lastRun + 1000 ≤ s.sys.slotOf s.sys.now) ∧
    base.sluice.accum < 1000000000 * 2 ^ 32 ∧ base.sluice.seconds < 3600 := by decide

/-! ### Errors, power, quarters -/

theorem witness_triplicated : base.up = true ∧ natAt base.sys.counters Cls.TMR_CORRECT ≤ counterMax ∧ base.sys.regs.tmr = [] ∧
    base.heron.shadowTmr = {} ∧ base.heron.moduleStop = false := by decide

theorem witness_scrub :
    (∀ key ∈ [0, 15, 16, 1039],
      natAt base.storage.scrubPos key + 1 < scrubLength key ∧ base.sys.localFault (scrubAddr key 0) = none ∧
        base.refreshing (scrubAddr key 0) = false) ∧ base.job.active = false ∧ base.writeBacksWait = false ∧
    base.sys.coreFenced 1023 = false := by decide

theorem witness_scrub_errors :
    let s : State := { base with sys := { base.sys with valid := [(0, true)] } }
    s.sys.lineValid 0 = true := by decide

theorem witness_scrub_queue :
    let s : State := { base with storage := { base.storage with repairQueue := [(0, [(0, [0], [1])])] } }
    s.storage.queue 0 = [(0, [0], [1])] ∧ s.sys.peekN 0 1 = [0] := by decide

theorem witness_power :
    base.powerCap < (65535 : BitVec 16).toNat ∧ (0 : BitVec 16).toNat ≤ base.powerCap ∧ (List.replicate 20 (0 : Int)).length = 20 ∧
      4 ≤ base.heron.stage ∧ base.power.vddcSince = [] ∧ base.sys.quarterGone 3 = false ∧
      (∃ r ∈ [(127 : Int)], (base.sys.regField 0x090020 0 8 : Int) ≤ r) ∧ (∀ r ∈ [(-40 : Int)], r < (base.sys.regField 0x090020 0 8 : Int) - 3) := by
  decide

theorem witness_vddc :
    650 ≤ base.vddcTarget 0 + 5 ∧ base.vddcTarget 0 + 5 ≤ 800 ∧
    (let s : State := { base with power := { base.power with vddc := [(0, 800)] } }
     800 < s.vddcTarget 0 + 5) := by decide

theorem witness_throttle_end :
    let s : State := { at_ 1000000 [] with power := { (at_ 0 []).power with thermRemoval := [(0, 1)] } }
    natAt s.power.thermRemoval 0 = 1 ∧ natAt s.power.thermSince 0 + 1000000 ≤ s.sys.now := by decide

theorem witness_quarters : (3 : BitVec 2) ≠ 0 ∧ base.sys.quarterGone 3 = false ∧ base.sparesLeft 3 1 ≠ 0 := by decide

/-! ### Cores -/

/-- A ready module whose core 0 has its firmware. -/
def live : State := { base with heron := { base.heron with loaded := [(0, true)] } }

/-- `live` with core 0 as given. -/
def liveWith (k : Core) : State := { live with cores := [(0, k)] }

/-- A command word: opcode and bits beside it. -/
def word (op more : Nat) : Cmd := BitVec.ofNat 1024 (op + more)
/-- Operand `k` in use, with its base and format, and the PARAM bytes from `o` with a value. -/
def operand (k addr fmt : Nat) : Nat := (addr + fmt * 2 ^ 19 + 2 ^ 31) * 2 ^ (8 * (20 + 20 * k))
def params (o v : Nat) : Nat := v * 2 ^ (8 * (80 + o))
/-- `levels` loop levels of one round each. -/
def loopLevels (n : Nat) : Nat := n * 2 ^ 44 + ((List.range n).map fun l => 2 ^ (8 * (8 + 2 * l))).sum

def issue (op more : Nat) : Issue := { core := 0, word := word op more }

/-- The job state on core 0: a stream of 8 commands at its first, which is the given word. -/
def streaming (op more : Nat) : State := liveWith { inJob := true, cm := [(0, word op more)], stream := some { first := 0, pc := 0, len := 8 } }

theorem witness_plain_commands :
    (∀ op ∈ [0x00, 0x01, 0x04, 0x06, 0x23, 0x80, 0xA2, 0xA3, 0xA4], plainCommand (issue op 0) op (word op 0) live) ∧
    plainCommand (issue 0xA1 (params 0 15)) 0xA1 (word 0xA1 (params 0 15)) live ∧
    plainCommand (issue 0xA0 (params 0 16)) 0xA0 (word 0xA0 (params 0 16)) live ∧
    plainCommand (issue 0x82 (params 0 3)) 0x82 (word 0x82 (params 0 3)) live ∧
    plainCommand (issue 0x05 (params 0 0x80)) 0x05 (word 0x05 (params 0 0x80)) (streaming 0x05 (params 0 0x80)) := by
  simp only [plainCommand]; decide +kernel

theorem witness_repeat :
    let m := params 0 3 + params 2 5
    let s := streaming 0x02 m
    plainCommand (issue 0 0) 0x02 (word 0x02 m) s ∧ (s.core 0).stream = some { first := 0, pc := 0, len := 8 } ∧
      (word 0x02 m).param 0 0 16 = 3 ∧ (word 0x02 m).param 2 0 16 = 5 ∧ 0 + 3 < 0 + 8 := by
  simp only [plainCommand]; decide +kernel

theorem witness_wait :
    (0 ≤ ((live.core 0).obj 0 - BitVec.ofNat 32 ((word 0x04 0).param 4 0 32)).toInt) ∧
    ¬ 0 ≤ ((live.core 0).obj 0 - BitVec.ofNat 32 ((word 0x04 (params 4 1)).param 4 0 32)).toInt := by decide +kernel

theorem witness_mark :
    let s : State := { live with sys := { live.sys with trace := { ctrl := 1, clusters := 1 } } }
    (word 0x06 0).traced = false ∧ s.jobMode 2 1 = 0 ∧ s.sys.trace.ctrl.getLsbD 0 = true ∧
      s.sys.trace.clusters.getLsbD 0 = true ∧ s.sys.trace.count < tracePlaces ∧ natAt s.sys.trace.coreLost 0 = 0 := by decide +kernel

theorem witness_call :
    romRoutines.contains ((word 0x03 (params 0 0x30)).param 0 0 8) = false ∧ live.patched 0x30 = false ∧
      ({ live with heron := { live.heron with patches := 2 ^ 192 } } : State).patched 0xC0 = true ∧ live.current (issue 0x03 0) = some (word 0x03 0) ∧
      (live.core 0).callReady = true ∧ ({ issue 0x03 0 with ecc := true } : Issue).ecc = true := by decide +kernel

theorem witness_stream_end :
    let s := liveWith { inJob := true, stream := some { ended := true } }
    s.coreLive 0 = true ∧ (s.core 0).stream = some { ended := true } ∧ (s.core 0).allIdle = true := by decide +kernel

/-- A race that the check finds, and a state whose job runs with RACE_CHECK and RACE_FATAL set. -/
theorem witness_race :
    let s : State := { streaming 0x00 0 with job := { (streaming 0x00 0).job with mode := 12 } }
    Machine.Race.ok { unit := UnitCode.array, writerUnit := UnitCode.vector, granule := 8, distance := 16 } = true ∧ s.jobMode 2 1 = 1 ∧
      s.jobMode 3 1 = 1 ∧ live.jobMode 2 1 = 0 := by decide +kernel

theorem witness_barrier_arrival :
    let s : State := { streaming 0x05 0 with comp := { participants := [(0, true)] } }
    flagAt s.comp.participants 0 = true ∧ s.barrierCount (barrierKey 0 0 0) 0 + 1 = s.clusterParts 0 ∧
      flagAt (streaming 0x05 0).comp.participants 0 = false := by decide +kernel

theorem witness_barrier_release :
    let key := barrierKey 0 0 15
    let s : State := { liveWith { inJob := true, stream := some { barrier := some key } } with
      comp := { participants := [(0, true)], barCounts := [(barrierNode key 0, 1)] } }
    s.up = true ∧ s.barrierFull 0 0 key = true ∧ live.barrierFull 2 0 (barrierKey 2 0 0) = false ∧
      (s.core 0).stream = some { barrier := some key } := by decide +kernel

theorem witness_signals :
    let s : State := { liveWith { dones := [3] } with comp := { signals := [{ core := 0, target := 0x3FFF }] } }
    s.comp.signals = [{ core := 0, target := 0x3FFF }] ∧ s.sys.coreFenced ((0x3FFF : BitVec 14).toNat / 16) = false ∧
      (s.core 0).dones = [3] ∧ (word 0xA2 (params 2 1)).param 2 0 3 = 0 + 1 := by decide +kernel

theorem witness_signal_after :
    let s := liveWith { movers := [(0, [{ serial := 7 }])] }
    let y : Signal := { core := 0, target := 0, after := some (0, 7) }
    let t := liveWith { movers := [(0, [{ serial := 7 }])], signals := [y] }
    lastSerial (s.core 0) 0 = some 7 ∧ (s.core 0).signals = [] ∧ (t.core 0).signals = [y] ∧ y.unready (t.core 0) = true := by decide +kernel

theorem witness_rings :
    let s := liveWith { rings := [(7, { enabled := true, slots := 16, tail := 1 })] }
    let r := (s.core 0).ring 7
    r.enabled = true ∧ r.mcast = false ∧ r.feeds = false ∧ r.ready + 15 ≤ r.slots ∧ 1 ≤ r.ready ∧ r.ready < 15 := by decide +kernel

theorem witness_array_load :
    let m := operand 1 0 3 + params 0 (2 + 256) + loopLevels 1
    atCommand (issue 0x20 m) 0x20 (word 0x20 m) { word := word 0x20 m } live ∧ loadLegal (live.width31 0) (word 0x20 m) = true ∧
      (live.core 0).array.shadow.state = 0 ∧ (word 0x20 m).steps = (word 0x20 m).param 1 0 8 ∧ (live.core 0).array.streamer = [] ∧
      (live.core 0).array.step = 0 ∧ (live.core 0).vec = [] := by
  simp only [atCommand]; decide +kernel

theorem witness_array_stream :
    let m := operand 1 0 3 + operand 0 0 9
    let s := liveWith { array := { active := { state := 2, fmt := 3, k := 1, n := 1, cols := [[(1, false)]] } } }
    (∀ op ∈ [0x21, 0x22], atCommand (issue op m) op (word op m) { word := word op m } s ∧ streamLegal (word op m) = true ∧
      (word op m).param 0 0 8 % 16 = 0 ∧ (word op m).levels = 0) ∧ (s.core 0).array.active.state = 2 := by
  simp only [atCommand]; decide +kernel

theorem witness_array_other :
    (let s := liveWith { array := { token := true, shadow := { state := 2 } } }
     s.coreLive 0 = true ∧ (s.core 0).array.token = true ∧ (s.core 0).array.shadow.state = 2) ∧
    (let p : PortCmd := { word := word 0x21 0 }
     let s := liveWith { array := { streamer := [p] } }
     (s.core 0).array.streamer = [p] ∧ p.word.opcode = 0x21 ∧ (s.core 0).array.active.state ≠ 2) ∧
    (let d : Drain := { cmd := { word := word 0x21 (operand 0 0 4) }, len := 32 }
     let s := liveWith { array := { drains := [d] } }
     (s.core 0).array.drains = [d] ∧ d.kind = 0 ∧ d.len ≤ 32 ∧ d.cmd.epiValid = false ∧ d.cmd.word.opFmt 0 = 4) := by decide +kernel

theorem witness_chain :
    let m := operand 0 0 4 + operand 1 64 4 + operand 2 128 4 + params 0 (1 + 2 ^ 16 + (0x20 + 2 ^ 12) * 2 ^ 64)
    atCommand (issue 0x40 m) 0x40 (word 0x40 m) { word := word 0x40 m, base1 := 64, base2 := 128 } live ∧ vecChainLegal (word 0x40 m) = true ∧
      (word 0x40 m).chain.reduce = false ∧ (word 0x40 m).chain.strict = false ∧ (live.core 0).vec = [] ∧ (word 0x40 m).chain.elems ≤ 64 := by
  simp only [atCommand]; decide +kernel

/-- A chain that fills the port's third place, and one whose first input lies one cc of results behind its output. -/
theorem witness_chain_port :
    let m := operand 0 256 4 + operand 1 0 4 + operand 2 4096 4 + params 0 (128 + 2 ^ 16 + (0x20 + 2 ^ 12) * 2 ^ 64)
    let p : PortCmd := { word := word 0x40 m, base0 := 256, base2 := 4096 }
    let s := liveWith { vec := [{ cmd := p }, { cmd := p }] }
    atCommand (issue 0x40 m) 0x40 (word 0x40 m) p s ∧ vecChainLegal (word 0x40 m) = true ∧ (s.core 0).vec.length = 2 ∧
      p.addr 0 0 = p.addr 1 0 + 256 ∧ 64 < (word 0x40 m).chain.elems ∧ s.cores.map Prod.fst = [0] ∧ s.pending = [] ∧ s.coreLive 0 = true := by
  simp only [atCommand]; decide +kernel

theorem witness_sideadd :
    let m := operand 0 0 9 + operand 1 64 2 + params 0 1
    atCommand (issue 0x42 m) 0x42 (word 0x42 m) { word := word 0x42 m, base1 := 64 } live ∧ (word 0x42 m).opValid 2 = false ∧
      (word 0x42 m).param 0 0 32 = 1 ∧ live.sys.spadPoison 0 64 8 = false := by
  simp only [atCommand]; decide +kernel

/-- Core 0 with a FILL descriptor of one FP32 element at scratchpad address 0. -/
def described : State := { live with sys := { live.sys with mem := [(spadByte 0 1, 1), (spadByte 0 2, 9), (spadByte 0 8, 1)] } }

theorem witness_descriptor :
    let d : Desc := bytesToNat (described.sys.spadRead 0 0 96)
    plainCommand (issue 0x41 0) 0x41 (word 0x41 0) described ∧ (described.sys.peek (spadByte 0 0)).toNat = Desc.op d ∧
      (described.core 0).inJob = false ∧ described.sys.spadPoison 0 0 96 = false ∧ Desc.ok d described.sys 0 = true ∧
      Desc.total d = 1 ∧ d.testBit 24 = false ∧ Desc.stop d = false := by
  simp only [plainCommand]; decide +kernel

theorem witness_mover_queues :
    (let m := operand 0 0 1 + params 32 64
     atCommand (issue 0x60 m) 0x60 (word 0x60 m) { word := word 0x60 m } live ∧ movLegal 1 0 (word 0x60 m) = true) ∧
    (let m := operand 1 0 1 + params 32 64
     (atCommand (issue 0x61 m) 0x61 (word 0x61 m) { word := word 0x61 m } live ∧ movLegal 0 1 (word 0x61 m) = true) ∧
     atCommand (issue 0x62 m) 0x62 (word 0x62 m) { word := word 0x62 m } live) ∧
    (let m := loopLevels 1 + params 32 64
     let s := liveWith { rings := [(0, { enabled := true, slots := 2, slotKib := 1 })] }
     atCommand (issue 0x63 m) 0x63 (word 0x63 m) { word := word 0x63 m } s ∧ feedLegal (s.core 0) (word 0x63 m) = true) ∧
    (moverQueue (live.core 0) 0).length < 16 := by
  simp only [atCommand]; decide +kernel

theorem witness_mover_packet :
    let w := word 0x61 (operand 1 0 1 + params 32 64)
    let g : MoverCmd := { cmd := { word := w } }
    let s := liveWith { movers := [(0, [g])] }
    moverQueue (s.core 0) 0 = [g] ∧ g.step < w.steps ∧ w.burst ≤ 4096 ∧ g.off < w.burst ∧ (s.core 0).packets.length < 128 := by decide +kernel

theorem witness_mover_target :
    live.sys.target (spadBase 5) = .here (spadBase 5) ∧ regionOf (spadBase 5) = .scratchpad 5 ∧ live.sys.ctxMoving (spadBase 5) 64 = false ∧
      live.sys.localFault (spadBase 5) = none ∧ live.writeWaits (spadBase 5) 64 = false ∧ live.refreshing (spadBase 5) = false ∧
      live.sys.target (2 ^ 52) = .refused Cls.ADDR_UNMAPPED ∧ live.sys.localFault 0x0800000000 = some Cls.ADDR_UNMAPPED ∧
      ({ live with sessions := { deferred := [(contextBase 0, [0], [])] } } : State).writeWaits (contextBase 0) 64 = true := by
  decide +kernel

theorem witness_mover_responses :
    let p : Packet := { read := true, global := spadBase 5, len := 64 }
    let q : Packet := { read := false, len := 64 }
    let s := liveWith { packets := [p] }
    let t := liveWith { packets := [q], movers := [(0, [{ cmd := { word := word 0x61 0 }, step := 1 }])] }
    (s.core 0).packets = [p] ∧ p.remote = none ∧ p.data = none ∧ regionOf (p.global % 2 ^ 46) = .scratchpad 5 ∧
      (t.core 0).packets = [q] ∧ q.read = false ∧ moverQueue (t.core 0) 0 = [{ cmd := { word := word 0x61 0 }, step := 1 }] := by decide +kernel

theorem witness_ring_fill :
    let w := word 0x63 (params 32 64)
    let s := liveWith { rings := [(0, { enabled := true, lead := 1, slots := 2 })], movers := [(0, [{ cmd := { word := w } }])] }
    let x := (s.core 0).ring 0
    x.enabled = true ∧ x.pulls = none ∧ w.opcode = 0x63 ∧ w.feedRing = 0 ∧ 0 < w.steps ∧ (x.fillCount - x.head).toNat < x.lead ∧
      ((liveWith { rings := [(0, { fills := [(0, 0, 0, true)] })] }).core 0).ring 0 = { fills := [(0, 0, 0, true)] } := by decide +kernel

/-- A call of a checkpoint that waits for its writes. -/
theorem witness_call_returns :
    let t := liveWith { call := some (word 0x03 0), packets := [{ queue := 3, len := 64 }], movers := [(3, [{ cmd := { word := word 0x61 0 }, step := 1 }])] }
    (t.core 0).call = some (word 0x03 0) ∧ moverQueue (t.core 0) 3 = [{ cmd := { word := word 0x61 0 }, step := 1 }] ∧
      moverQueue (live.core 0) 3 = [] ∧ (live.core 0).inJob = false := by decide +kernel

theorem witness_misfit : live.patched 0x02 = false ∧ (word 0x03 (params 0 0x02)).opValid 1 = false ∧
    2 < (word 0x03 (params 0 0x24 + params 8 3)).arg 1 := by decide +kernel

theorem witness_routines :
    (∀ code ∈ [0x00, 0x40, 0x41, 0x48, 0x49, 0x4A],
      calls (issue 0x03 (params 0 code)) code (word 0x03 (params 0 code)) { word := word 0x03 (params 0 code) } live) ∧
    (let m := operand 1 0 1 + params 0 0x20 + params 8 6
     calls (issue 0x03 m) 0x20 (word 0x03 m) { word := word 0x03 m } live ∧ routineRow (issue 0x03 m) (word 0x03 m) (.rtCrc24 (issue 0x03 m)) 0x20) := by
  refine ⟨by simp only [calls]; decide +kernel, by simp only [calls]; decide +kernel, ?_⟩
  refine Or.inr (Or.inr (Or.inr (Or.inr (Or.inr (Or.inr (Or.inr (Or.inl ⟨rfl, rfl, ?_⟩)))))))
  simp only [wants]
  decide +kernel

/-- A running Signal Unit before an empty bundle. -/
def runningUnit : SignalUnit := { running := true }

theorem witness_signal_unit : standsAt 0 (liveWith { su := runningUnit }) runningUnit {} ∧ Bundle.lsOp {} = 0 ∧ Bundle.macOp {} = 0 := by
  simp only [standsAt]; decide +kernel

/-- The bundle of ADD D2, D1, D0 at program address 0: ALU opcode 01H, destination 2, A 1, B 0. -/
theorem witness_signal_add :
    let u : SignalUnit := { running := true, c := [(1, 0x21), (2, 0x01)] }
    standsAt 0 (liveWith { su := u }) u { alu := 0x12100 } ∧ Bundle.aluOp { alu := 0x12100 } = 0x01 := by
  simp only [standsAt]; decide +kernel

theorem witness_signal_illegal :
    let u : SignalUnit := { running := true, c := [(2, 0x1F)] }
    ((bundleAt u u.pc []).illegal u).isSome = true := by decide +kernel

theorem witness_signal_control :
    plainCommand (issue 0x80 0) 0x80 (word 0x80 0) live ∧ (live.core 0).vec = [] ∧ (secdedDecode [0, 1]).bad = true ∧ (live.core 0).su.port = [] ∧ (live.core 0).su.started = false ∧
    (let m := operand 1 0 1 + params 4 2
     atCommand (issue 0x81 m) 0x81 (word 0x81 m) { word := word 0x81 m } live ∧ xferLegal (word 0x81 m) = true) ∧
    (let u : SignalUnit := { running := true, pending := 8, issued := true, sinceRti := true }
     u.pending.getLsbD 3 = true ∧ (∀ m, m < 3 → u.pending.getLsbD m = false) ∧ u.handler = false ∧ u.delay = 0) ∧
    1048576 ≤ ({ running := true, run := 1048576 } : SignalUnit).run := by
  simp only [plainCommand, atCommand]; decide +kernel

/-! ### Numbers the spec works out -/

/-- The bytes of "123456789". -/
def digits : List Byte := (List.range 9).map fun i => BitVec.ofNat 8 (0x31 + i)

/-- Check values of R53, R56 and R67. -/
theorem test_check_values : hcrc (bytesBits digits) = 0x29B1 ∧ crc24 digits = 0x21CF02 ∧ crc32 digits = 0xCBF43926 := by decide +kernel

/-- Chapter 2, worked encoding, steps 1 and 5 to 9. -/
theorem test_worked_encoding :
    withCrc24 digits = digits ++ [0x21, 0xCF, 0x02] ∧ headerUpper 0x51234 3 8 0x2E false true = 0x512343082E41 ∧
      sessionSeed 0x51234 = 0x3A34 ∧ packBits (scramblerBits 16 0x3A34) = [0x58, 0x4F] ∧
      mapSymbols true (bytesBits [0x69, 0x7D]) = [3, -1, -1, 3, 3, -3, -3, 3] ∧ uplinkDataSymbols (profileOf 3) 9 = 176 ∧
      60 + symbolsWithPilots 176 = 252 := by decide +kernel

/-- The same, steps 3 and 4 and 14: transmitted bits, and the symbols of the acknowledgement. -/
theorem test_worked_lengths :
    (encodePayload 1 16 (bytesBits (withCrc24 digits))).length = 224 ∧ downlinkDataSymbols (profileOf 3) 2 = 152 ∧
      downlinkSymbols 152 = 216 ∧ downlinkSamples 152 = 432 := by decide +kernel

/-- Every parity row of the base graph holds on a codeword (R61 to R64): the syndrome of an encoded block is zero. -/
theorem test_ldpc_codeword :
    let c := encodePayload 0 16 ((List.range 128).map fun i => i % 3 == 0)
    syndromeZero 16 (layerEntries 0 16) (c.map fun b => if b then (-1 : Int) else 1).toArray = true := by decide +kernel

/-- Chapter 5: a row of layer 0. -/
theorem test_min_sum_row :
    rowMessages [40, -12, 25, 7, -60, 33, 18, 90] (List.replicate 8 (104, 1)) = [5, -5, 5, 9, -5, 5, 5, 5] := by decide

/-- Chapter 9: 22.5 is written as 23 in INT8. -/
theorem test_requantised : writeElem 1 0 (.fin false 45 (-1)) = 23 := by decide +kernel

/-- Chapter 13: an entry accepted before a wrap of the low 40 bits. -/
theorem test_entry_extended : extendEntry 0x1B25FFFFFFF00000 0x0000100000 = 0x1B26000000100000 := by decide +kernel

/-- Chapter 0: core 0x2B7 and its scratchpad; chapter 1: the channel of an LPDDR6 address. -/
theorem test_addresses : spadBase 0x2B7 = 0x1015B80000 ∧ regionOf 0x1015B80000 = .scratchpad 0x2B7 ∧ regionOf 0x0640001000 = .lpddr 13 := by
  decide +kernel

/-- Chapter 6: the MOV.GET of core 0x2B7, its bytes as the spec lists them. -/
def movGetWord : Cmd :=
  BitVec.ofNat 1024 (0x60 + 0x02 * 2 ^ 8 + 0x12 * 2 ^ 16 + 0x04 * 2 ^ 24 + 0x28 * 2 ^ 32 + 0x10 * 2 ^ 40 + 0x05 * 2 ^ 48 + 0x04 * 2 ^ (8 * 8)
    + 0x80140000 * 2 ^ (8 * 20) + 0x0100 * 2 ^ (8 * 24) + 0xC0112B020000 * 2 ^ (8 * 80) + 0x0400 * 2 ^ (8 * 88) + 0x0100 * 2 ^ (8 * 112)
    + 0x02 * 2 ^ (8 * 114))

theorem test_mov_get_fields :
    movGetWord.opcode = 0x60 ∧ movGetWord.signalDone = true ∧ movGetWord.tag = 0x0412 ∧ movGetWord.levels = 1 ∧ movGetWord.doneObj = 5 ∧
      movGetWord.opValid 0 = true ∧ movGetWord.opFmt 0 = 2 ∧ movGetWord.burst = 256 ∧ movGetWord.queue = 2 ∧ movLegal 1 0 movGetWord = true := by
  decide +kernel

theorem test_mov_get_walk :
    (List.range 4).map movGetWord.globalAt = [0xC0112B020000, 0xC0112B020400, 0xC0112B020800, 0xC0112B020C00] ∧
      (List.range 4).map (movGetWord.addrAt 0 0x40000) = [0x40000, 0x40100, 0x40200, 0x40300] := by decide +kernel

/-- Chapter 10: the circular update of P0, and the linear one of P1. -/
theorem test_circular :
    let u : SignalUnit := { p := [(0, 0x13FC), (1, 0x200)], m := [(0, 4), (1, 4)], b := [(0, 0x1000)], l := [(0, 0x400)] }
    pointer u 2 0 = (0x13FC, 0x1000) ∧ pointer u 2 1 = (0x200, 0x204) := by decide

/-- Chapter 15: the record goes to slot 4,095 of pass 6 with 4,090 slots free, and the next pass has phase 0. -/
theorem test_ring_positions :
    let h : HostRing := { log2 := 12, modPos := 4095, hostPos := 4090 }
    h.free = 4090 ∧ (h.advance 1).modPos = 0 ∧ (h.advance 1).phase = false := by decide

/-- Chapter 21: the cores of cluster 43 in FUSE_CORE_STATUS. -/
theorem test_core_status :
    let s : State := { base with
      heron := { base.heron with shadow := { base.heron.shadow with badColumn := [(0x2B5, 0x31)] } },
      sys := { base.sys with fences := { base.sys.fences with core := [(0x2B2, 2)] } } }
    readReg s 0x0212B0 = 0x0000310000800000 := by decide +kernel

end Sys2Proof.Tests
end

section
/-! SUPPORT. Bits of numbers, bytes in either order, numbers read back from memory, and what updates leave of a ring. -/

namespace Sys2Proof.HostInterface

open Sys2Proof.Machine

/-! ### Bits of a number -/

theorem testBit_bitsOf (v lo len i : Nat) : (bitsOf v lo len).testBit i = (decide (i < len) && v.testBit (lo + i)) := by
  rw [bitsOf, Nat.testBit_mod_two_pow, Nat.testBit_div_two_pow, Nat.add_comm lo i]

/-- Numbers with the same bits in a field have the same field. -/
theorem bitsOf_congr {v w lo len : Nat} (h : ∀ i, lo ≤ i → i < lo + len → v.testBit i = w.testBit i) :
    bitsOf v lo len = bitsOf w lo len := by
  refine Nat.eq_of_testBit_eq fun i => ?_
  rw [testBit_bitsOf, testBit_bitsOf]
  by_cases hi : i < len
  · rw [h (lo + i) (by omega) (by omega)]
  · simp [hi]

theorem bitsOf_zero (v len : Nat) : bitsOf v 0 len = v % 2 ^ len := by rw [bitsOf, Nat.pow_zero, Nat.div_one]

theorem bitsOf_eq_zero_iff (v i : Nat) : bitsOf v i 1 = 0 ↔ v.testBit i = false := by
  rw [bitsOf, Nat.testBit_eq_decide_div_mod_eq, decide_eq_false_iff_not]
  omega

/-- Replaced bits read as the value put there, the others as before. -/
theorem testBit_putBits (v lo len x i : Nat) :
    (putBits v lo len x).testBit i = if lo ≤ i ∧ i < lo + len then x.testBit (i - lo) else v.testBit i := by
  have hv : v = 2 ^ lo * (2 ^ len * (v / 2 ^ lo / 2 ^ len) + bitsOf v lo len) + v % 2 ^ lo := by
    rw [bitsOf, Nat.div_add_mod, Nat.div_add_mod]
  have hp : putBits v lo len x = 2 ^ lo * (2 ^ len * (v / 2 ^ lo / 2 ^ len) + x % 2 ^ len) + v % 2 ^ lo := by
    rw [Nat.mul_add] at hv
    rw [putBits, Nat.mul_add, Nat.mul_comm (bitsOf v lo len), Nat.mul_comm (x % 2 ^ len)]
    omega
  have hlo := Nat.mod_lt v (Nat.two_pow_pos lo)
  have hx := Nat.mod_lt x (Nat.two_pow_pos len)
  have hm : bitsOf v lo len < 2 ^ len := Nat.mod_lt _ (Nat.two_pow_pos len)
  rw [hp]
  conv => rhs; rw [hv]
  rw [Nat.testBit_two_pow_mul_add _ hlo, Nat.testBit_two_pow_mul_add _ hlo, Nat.testBit_two_pow_mul_add _ hx,
    Nat.testBit_two_pow_mul_add _ hm, Nat.testBit_mod_two_pow]
  by_cases h1 : i < lo
  · rw [if_pos h1, if_pos h1, if_neg (by omega)]
  · by_cases h2 : i < lo + len
    · rw [if_neg h1, if_pos (by omega), if_pos (by omega)]
      simp [show i - lo < len by omega]
    · rw [if_neg h1, if_neg h1, if_neg (by omega), if_neg (by omega), if_neg (by omega)]

/-! ### Bytes, most significant first -/

theorem bytesToNat_natToBytes (n v : Nat) : bytesToNat (natToBytes n v) = v % 256 ^ n := by
  induction n generalizing v with
  | zero => simp [natToBytes, bytesToNat, Nat.mod_one]
  | succ n ih =>
    rw [natToBytes, bytesToNat, ih, BitVec.toNat_ofNat, Nat.pow_succ' (m := 256), Nat.mod_mul]

theorem bytesBE_length (n v : Nat) : (bytesBE n v).length = n := by rw [bytesBE, List.length_reverse, natToBytes_length]

/-- A big-endian number within a string of bytes is read back. -/
theorem beAt_append {pre : List Byte} {o : Nat} (h : pre.length = o) (n v : Nat) (post : List Byte) :
    beAt (pre ++ (bytesBE n v ++ post)) o n = v % 256 ^ n := by
  rw [← bytesToNat_natToBytes, beAt]
  congr 1
  refine List.ext_getElem (by simp [natToBytes_length]) fun i h1 h2 => ?_
  rw [natToBytes_length] at h2
  have hi : o + (n - 1 - i) - o = n - 1 - i := by omega
  have hb : (bytesBE n v)[n - 1 - i]'(by rw [bytesBE_length]; omega) = (natToBytes n v)[i]'(by rwa [natToBytes_length]) := by
    simp only [bytesBE, List.getElem_reverse, natToBytes_length]
    congr 1
    omega
  rw [List.getElem_map, List.getElem_range, List.getD_eq_getElem?_getD, List.getElem?_append_right (by omega), h, hi,
    List.getElem?_append_left (by rw [bytesBE_length]; omega), List.getElem?_eq_getElem (by rw [bytesBE_length]; omega), hb]
  rfl

theorem getD_append_cons {pre : List Byte} {o : Nat} (h : pre.length = o) (b : Byte) (post : List Byte) :
    (pre ++ b :: post).getD o 0 = b := by
  rw [List.getD_eq_getElem?_getD, List.getElem?_append_right (by omega), h, Nat.sub_self]
  rfl

theorem beAt_drop (bs : List Byte) (k o n : Nat) : beAt (bs.drop k) o n = beAt bs (k + o) n := by
  simp only [beAt, List.getD_eq_getElem?_getD, List.getElem?_drop, Nat.add_assoc]

/-! ### Numbers written as bytes and read back -/

/-- Byte `k` of a number, least significant first. -/
theorem getD_natToBytes : ∀ (m v k : Nat), k < m → (natToBytes m v).getD k 0 = BitVec.ofNat 8 (v / 256 ^ k)
  | 0, _, _, h => by omega
  | m + 1, v, 0, _ => by rw [natToBytes, List.getD_cons_zero, Nat.pow_zero, Nat.div_one]
  | m + 1, v, k + 1, h => by
    rw [natToBytes, List.getD_cons_succ, getD_natToBytes m (v / 256) k (by omega), Nat.div_div_eq_div_mul, Nat.pow_succ']

theorem peek_number {m k : Nat} (h : k < m) (y : Sys) (a v : Nat) :
    (y.pokeN a (natToBytes m v)).peek (a + k) = BitVec.ofNat 8 (v / 256 ^ k) := by
  rw [Sys.peek_pokeN, natToBytes_length, if_pos (by omega), Nat.add_sub_cancel_left, getD_natToBytes m v k h]

/-- Part of a number stored in memory, bytes `k` to `k + n - 1`. -/
theorem peekNat_number (n : Nat) {m k : Nat} (h : k + n ≤ m) (y : Sys) (a v : Nat) :
    (y.pokeN a (natToBytes m v)).peekNat (a + k) n = v / 256 ^ k % 256 ^ n := by
  have hbytes : (y.pokeN a (natToBytes m v)).peekN (a + k) n = natToBytes n (v / 256 ^ k) := by
    induction n generalizing k with
    | zero => rfl
    | succ n ih =>
      rw [Sys.peekN, natToBytes, peek_number (by omega), Nat.add_assoc, ih (by omega), Nat.div_div_eq_div_mul, Nat.pow_succ]
  rw [Sys.peekNat, hbytes, bytesToNat_natToBytes]

/-! ### Rings, registers and memory -/

theorem ring_setReg (y : Sys) (off v q : Nat) : (y.setReg off v).ring q = y.ring q := rfl

theorem reg_setLowHalf (y : Sys) (b : Nat) (half : Option (Nat × Nat)) (off : Nat) :
    (y.setLowHalf b half).reg off = y.reg off := rfl

theorem ring_count (y : Sys) (c q : Nat) : (y.count c).ring q = y.ring q := rfl

theorem ring_signalVector (y : Sys) (v r : Nat) : (y.signalVector v).ring r = y.ring r := by
  rw [Sys.ring, Sys.signalVector_rings, Sys.ring]

/-- Signalling a ring touches nothing of it but the time since which an entry waits for its interrupt (R452). -/
theorem ring_signalRing_self (y : Sys) (r : Nat) (urgent : Bool) :
    ∃ since, (y.signalRing r urgent).ring r = { y.ring r with unsigSince := since } := by
  unfold Sys.signalRing
  dsimp only
  split
  · exact ⟨none, by rw [ring_signalVector, Sys.ring_setRing]⟩
  · exact ⟨_, Sys.ring_setRing ..⟩

theorem peek_congr_mem {y z : Sys} (h : z.mem = y.mem) (a : Nat) : z.peek a = y.peek a := by
  rw [Sys.peek, h, Sys.peek]

theorem peekNat_congr_mem {y z : Sys} (h : z.mem = y.mem) (a n : Nat) : z.peekNat a n = y.peekNat a n := by
  rw [Sys.peekNat, Sys.peekN_congr n a fun j _ _ => peek_congr_mem h j, Sys.peekNat]

end Sys2Proof.HostInterface
end

section
/-! SUPPORT. DOORBELL and HOSTQ_CFG (R435, R437), and the statement about them, O36. -/

namespace Sys2Proof.HostInterface

open Sys2Proof.Machine

/-! ### A write of HOSTQ_CFG while setup is open (R435) -/

/-- The fields of HOSTQ_CFG: LOG2_ENTRIES, ENABLE, VECTOR and COALESCE (Table 15-3). -/
def hostqCfgFlds : List Fld := [⟨0, 5, .rwl, 6, none⟩, ⟨5, 1, .rwl, 0, none⟩, ⟨8, 6, .rwl, 0, none⟩, ⟨16, 16, .rwl, 0, none⟩]

theorem findReg_hostqCfg : ∀ r < 18, findReg (hostqOff r + 8) = some (hostqOff r + 8, 4, hostqCfgFlds) := by decide

/-- Every field of HOSTQ_CFG takes the written bits while setup is open: each bit lies in one of the four fields, and no later field
touches it. -/
theorem testBit_hostqCfg (old w i : Nat) (h : i < 6 ∨ (8 ≤ i ∧ i < 14) ∨ (16 ≤ i ∧ i < 32)) :
    (regAfter false hostqCfgFlds old w).testBit i = w.testBit i := by
  simp -implicitDefEqProofs only [regAfter, hostqCfgFlds, fieldAfter, List.foldl_cons, List.foldl_nil, testBit_putBits,
    testBit_bitsOf, Bool.false_eq_true, if_false]
  grind

/-- The registers after a write of HOSTQ_CFG of ring `r`: its block's buffered low half is dropped, its fields are set. -/
def hostqWritten (r : Nat) (v : BitVec 32) (y : Sys) : Sys :=
  (y.setLowHalf 7 none).setReg (hostqOff r + 8) (regAfter false hostqCfgFlds (y.reg (hostqOff r + 8)) v.toNat)

section
variable {r : Nat} {v : BitVec 32} {y : Sys} {s : State}

theorem hostqWritten_ring (q : Nat) : (hostqWritten r v y).ring q = y.ring q :=
  (ring_setReg ..).trans rfl

theorem hostqWritten_counters : (hostqWritten r v y).counters = y.counters :=
  (Sys.setReg_counters ..).trans rfl

theorem hostqWritten_reg_ne {off : Nat} (h : off ≠ hostqOff r + 8) : (hostqWritten r v y).reg off = y.reg off :=
  Sys.reg_setReg_ne _ _ h

theorem hostqWritten_regField_ne {off : Nat} (h : off ≠ hostqOff r + 8) (lo len : Nat) :
    (hostqWritten r v y).regField off lo len = y.regField off lo len := by
  rw [Sys.regField, hostqWritten_reg_ne h, Sys.regField]

/-- A range of bits within HOSTQ_CFG's fields reads as written. -/
theorem hostqWritten_regField (lo len : Nat)
    (h : lo + len ≤ 6 ∨ (8 ≤ lo ∧ lo + len ≤ 14) ∨ (16 ≤ lo ∧ lo + len ≤ 32)) :
    (hostqWritten r v y).regField (hostqOff r + 8) lo len = bitsOf v.toNat lo len := by
  rw [Sys.regField, hostqWritten, Sys.reg_setReg]
  exact bitsOf_congr fun i h1 h2 => testBit_hostqCfg _ _ _ (by omega)

theorem hostqWritten_log2 : (hostqWritten r v y).regField (hostqOff r + 8) 0 5 = v.toNat % 32 :=
  (hostqWritten_regField 0 5 (by omega)).trans (bitsOf_zero ..)

/-- Its ENABLE bit stands as written. -/
theorem hostqWritten_enable : (hostqWritten r v y).regField (hostqOff r + 8) 5 1 = 0 ↔ v.getLsbD 5 = false := by
  rw [hostqWritten_regField 5 1 (by omega), bitsOf_eq_zero_iff, BitVec.testBit_toNat]

theorem hostqWritten_on (h : v.getLsbD 5 = true) : (hostqWritten r v y).regField (hostqOff r + 8) 5 1 ≠ 0 :=
  mt hostqWritten_enable.mp (by simp [h])

/-- What a write of HOSTQ_CFG does beside setting its fields (log entry 200). -/
theorem afterWrite_hostqCfg (hr : r < 18) (hl : s.job.lock = false) (old w : Nat) :
    afterWrite (hostqOff r + 8) old w s = ringEnable r s := by
  have hof : hostqOff r + 8 = 0x070008 + 0x20 * r := by rw [hostqOff]; omega
  have hindex : (0x070008 + 0x20 * r - 0x070000) / 0x20 = r := by omega
  rw [hof, afterWrite]
  simp (disch := omega) only [if_neg, if_pos, hl, hindex, Bool.false_eq_true, if_false]

/-- While setup is open, every field takes the written bits, and nothing counts as a locked write. -/
theorem writeReg_open {off : Nat} (ho : off ≠ incrOff) (hl : s.job.lock = false) (fs : List Fld) (w : Nat) :
    writeReg off fs w s =
      afterWrite off (s.sys.reg off) w (s.onSys fun y => y.setReg off (regAfter false fs (s.sys.reg off) w)) := by
  simp only [writeReg, lockedChange, hl, Bool.false_and, Bool.false_eq_true, if_false, if_neg ho]

theorem write32_hostqCfg (hr : r < 18) (w : Nat) :
    write32 (hostqOff r + 8) w s = writeReg (hostqOff r + 8) hostqCfgFlds w (s.onSys fun y => y.setLowHalf 7 none) := by
  have hb : (hostqOff r + 8) / 0x10000 = 7 := by rw [hostqOff]; omega
  simp only [write32, findReg_hostqCfg r hr, hb, if_true]

/-- An aligned word written to BAR 2. -/
theorem writeWord_aligned {off : Nat} (h : off % 4 = 0) (v : BitVec 32) : writeWord off v s = write32 off v.toNat s := by
  have hwide : (v.setWidth 64).toNat % 2 ^ 32 = v.toNat := by
    rw [BitVec.toNat_setWidth, Nat.mod_mod_of_dvd _ (by decide), Nat.mod_eq_of_lt v.isLt]
  rw [writeWord, bar2, if_neg (by simp [h])]
  simp only [hwide, Nat.reduceEqDiff, if_false]

/-- HOSTQ_CFG of an open setup sets its fields and then enables or disables its ring. -/
theorem ringConfig_open (hr : r < 18) (hl : s.job.lock = false) :
    ringConfig r v s = ringEnable r { s with sys := hostqWritten r v s.sys } := by
  have hof : hostqOff r = 0x070000 + 0x20 * r := rfl
  rw [ringConfig, if_pos hr, writeWord_aligned (by omega), write32_hostqCfg hr,
    writeReg_open (by rw [incrOff]; omega) (by rw [State.onSys_job, hl]),
    afterWrite_hostqCfg hr (by rw [State.onSys_job, State.onSys_job, hl]), State.onSys_sys, reg_setLowHalf, hostqWritten]
  rfl

/-! ### What the ENABLE bit does -/

theorem ringEnable_off (h : s.sys.regField (hostqOff r + 8) 5 1 = 0) :
    ringEnable r s = { s with sys := s.sys.setRing r { s.sys.ring r with enabled := false } } := by
  rw [ringEnable]; exact if_pos h

theorem ringEnable_usable (h : s.sys.regField (hostqOff r + 8) 5 1 ≠ 0) (hu : ringUsable s.sys r = true) :
    ringEnable r s = { s with
      sys := s.sys.setRing r
        { enabled := true, base := s.sys.reg (hostqOff r), log2 := s.sys.regField (hostqOff r + 8) 0 5,
          vector := s.sys.regField (hostqOff r + 8) 8 6,
          coalesce := if r < 8 then 0 else s.sys.regField (hostqOff r + 8) 16 16,
          bufBase := s.sys.reg (hostqOff r + 0x10), rxLog2 := s.sys.regField (hostqOff r + 0x18) 0 4 } } := by
  rw [ringEnable]; exact (if_neg h).trans (if_pos hu)

theorem ringEnable_unusable (h : s.sys.regField (hostqOff r + 8) 5 1 ≠ 0) (hu : ringUsable s.sys r = false) :
    ringEnable r s = { s with
      sys := (s.sys.setRing r { s.sys.ring r with enabled := false }).count Cls.RING_CONFIG_INVALID } := by
  rw [ringEnable]; exact (if_neg h).trans (if_neg (by simp [hu]))

/-- Only the ring itself and the counters change. -/
theorem ringEnable_frame (r : Nat) (s : State) :
    ringEnable r s = { s with sys := (ringEnable r s).sys } ∧ (∀ off, (ringEnable r s).sys.reg off = s.sys.reg off) ∧
      ∀ q, q ≠ r → (ringEnable r s).sys.ring q = s.sys.ring q := by
  have key : ∀ h : HostRing, ∀ q, q ≠ r → (s.sys.setRing r h).ring q = s.sys.ring q :=
    fun h q hq => Sys.ring_setRing_ne _ _ hq
  by_cases h : s.sys.regField (hostqOff r + 8) 5 1 = 0
  · rw [ringEnable_off h]; exact ⟨rfl, fun _ => rfl, key _⟩
  · cases hu : ringUsable s.sys r
    · rw [ringEnable_unusable h hu]; exact ⟨rfl, fun _ => rfl, key _⟩
    · rw [ringEnable_usable h hu]; exact ⟨rfl, fun _ => rfl, key _⟩

theorem ringUsable_size (h : ringUsable y r = true) :
    6 ≤ y.regField (hostqOff r + 8) 0 5 ∧ y.regField (hostqOff r + 8) 0 5 ≤ 16 := by
  simp only [ringUsable, Bool.and_eq_true, decide_eq_true_eq] at h
  obtain ⟨⟨⟨⟨_, h6⟩, h16⟩, _⟩, _⟩ := h
  exact ⟨h6, h16⟩

/-- For a ring without buffers, base and size are all that is judged (log entry 87). -/
theorem ringUsable_of_bufferless (hr : r < 8 ∨ r = 16) (hb : y.reg (hostqOff r) % 4096 = 0)
    (h6 : 6 ≤ y.regField (hostqOff r + 8) 0 5) (h16 : y.regField (hostqOff r + 8) 0 5 ≤ 16)
    (hh : hostRange (y.reg (hostqOff r)) (32 * 2 ^ y.regField (hostqOff r + 8) 0 5) = true) : ringUsable y r = true := by
  simp [ringUsable, hb, h6, h16, hh, hr]

end

/-! ### DOORBELL -/

/-- A doorbell within the enabled ring moves the host's position, a completion ring's head over occupied slots alone (R437). -/
theorem doorbell_moves {r : Nat} (hr : r < 18) (index : Nat) (s : State) :
    let h := s.sys.ring r
    doorbell r index s = { s with
      sys := if h.enabled = false then s.sys.count Cls.DOORBELL_DISABLED
        else if h.size ≤ index ∨ (8 ≤ r ∧ h.used < (index + h.size - h.hostPos) % h.size) then s.sys.count Cls.DOORBELL_RANGE
        else if r < 8 then s.sys.setRing r { h with hostPos := index, stopped := false, waitSince := none }
        else s.sys.setRing r { h with hostPos := index } } := by
  intro h
  rw [doorbell, if_neg (by omega)]
  show (if (!h.enabled) = true then _ else _) = _
  cases he : h.enabled
  · rfl
  · by_cases h1 : h.size ≤ index
    · simp [h, h1, State.onSys]
    · by_cases h8 : r < 8
      · simp [h, h1, h8, show ¬ 8 ≤ r by omega, State.onSys]
      · by_cases hu : h.used < (index + h.size - h.hostPos) % h.size
        · simp [h, h1, h8, hu, show 8 ≤ r by omega, State.onSys]
        · simp [h, h1, h8, hu, State.onSys]

theorem exec_doorbell {s : State} (hs : s.hostUp = true) (r : BitVec 5) (index : BitVec 16) :
    exec (.doorbell r index) s = .next (doorbell r.toNat index.toNat s) :=
  congrArg Host.Outcome.next (whenHost_of hs)

theorem exec_hostqEnable {s : State} (hs : s.hostUp = true) (r : BitVec 5) (v : BitVec 32) :
    exec (.hostqEnable r v) s = .next (ringConfig r.toNat v s) :=
  congrArg Host.Outcome.next (whenHost_of hs)

/-- A write of HOSTQ_CFG while setup is open, ring and registers as they then stand. -/
theorem exec_hostqEnable_open {s : State} (hs : s.hostUp = true) (r : BitVec 5) (hr : r.toNat < 18) (v : BitVec 32)
    (hl : s.job.lock = false) :
    exec (.hostqEnable r v) s = .next (ringEnable r.toNat { s with sys := hostqWritten r.toNat v s.sys }) := by
  rw [exec_hostqEnable hs, ringConfig_open hr hl]

/-! ### The three outcomes of HOSTQ_CFG -/

section
variable {r : Nat} {v : BitVec 32} {s : State}

/-- The state that HOSTQ_CFG of an open setup leaves. -/
def afterHostqCfg (r : Nat) (v : BitVec 32) (s : State) : State := ringEnable r { s with sys := hostqWritten r v s.sys }

theorem afterHostqCfg_frame (r : Nat) (v : BitVec 32) (s : State) :
    afterHostqCfg r v s = { s with sys := (afterHostqCfg r v s).sys } ∧
      (∀ off, off ≠ hostqOff r + 8 → (afterHostqCfg r v s).sys.reg off = s.sys.reg off) ∧
      (∀ q, q ≠ r → (afterHostqCfg r v s).sys.ring q = s.sys.ring q) ∧
      (afterHostqCfg r v s).sys.regField (hostqOff r + 8) 0 6 = v.toNat % 64 := by
  obtain ⟨hframe, hreg, hring⟩ := ringEnable_frame r { s with sys := hostqWritten r v s.sys }
  refine ⟨hframe, fun off h => (hreg off).trans (hostqWritten_reg_ne h),
    fun q h => (hring q h).trans (hostqWritten_ring q), ?_⟩
  rw [Sys.regField, afterHostqCfg, hreg]
  exact (hostqWritten_regField 0 6 (by omega)).trans (bitsOf_zero ..)

theorem afterHostqCfg_off (h : v.getLsbD 5 = false) :
    (afterHostqCfg r v s).sys.ring r = { s.sys.ring r with enabled := false } ∧
      (afterHostqCfg r v s).sys.counters = s.sys.counters := by
  rw [afterHostqCfg, ringEnable_off]
  · simp -implicitDefEqProofs only [Sys.ring_setRing, hostqWritten_ring, Sys.setRing_counters, hostqWritten_counters, and_self]
  · exact hostqWritten_enable.mpr h

theorem afterHostqCfg_badSize (h : v.getLsbD 5 = true) (hsize : ¬ (6 ≤ v.toNat % 32 ∧ v.toNat % 32 ≤ 16)) :
    ((afterHostqCfg r v s).sys.ring r).enabled = false ∧ counted Cls.RING_CONFIG_INVALID s (afterHostqCfg r v s) := by
  have hbad : ringUsable (hostqWritten r v s.sys) r = false := by
    rw [Bool.eq_false_iff]
    exact fun hok => hsize (hostqWritten_log2 ▸ ringUsable_size hok)
  rw [afterHostqCfg, ringEnable_unusable]
  · constructor
    · simp -implicitDefEqProofs only [ring_count, Sys.ring_setRing]
    · simp -implicitDefEqProofs only [counted, Sys.count, Sys.counter_countN, Sys.setRing_counters, hostqWritten_counters]
  · exact hostqWritten_on h
  · exact hbad

/-- A ring without buffers begins afresh with what its registers hold. -/
theorem afterHostqCfg_enables (h : v.getLsbD 5 = true) (h6 : 6 ≤ v.toNat % 32) (h16 : v.toNat % 32 ≤ 16)
    (hpage : s.sys.reg (hostqOff r) % 4096 = 0) (hhost : hostRange (s.sys.reg (hostqOff r)) (32 * 2 ^ (v.toNat % 32)) = true)
    (hkind : r < 8 ∨ r = 16) :
    (afterHostqCfg r v s).sys.counters = s.sys.counters ∧ (afterHostqCfg r v s).sys.ring r =
      { enabled := true, base := s.sys.reg (hostqOff r), log2 := v.toNat % 32, vector := v.toNat / 2 ^ 8 % 2 ^ 6,
        coalesce := if r < 8 then 0 else v.toNat / 2 ^ 16, bufBase := s.sys.reg (hostqOff r + 0x10),
        rxLog2 := s.sys.regField (hostqOff r + 0x18) 0 4 } := by
  have hbase : (hostqWritten r v s.sys).reg (hostqOff r) = s.sys.reg (hostqOff r) := hostqWritten_reg_ne (by omega)
  have hbuf : (hostqWritten r v s.sys).reg (hostqOff r + 0x10) = s.sys.reg (hostqOff r + 0x10) :=
    hostqWritten_reg_ne (by omega)
  have hrx := hostqWritten_regField_ne (r := r) (v := v) (y := s.sys) (off := hostqOff r + 0x18) (by omega) 0 4
  have hvec := hostqWritten_regField (r := r) (v := v) (y := s.sys) 8 6 (by omega)
  have hcoal : (hostqWritten r v s.sys).regField (hostqOff r + 8) 16 16 = v.toNat / 2 ^ 16 :=
    (hostqWritten_regField 16 16 (by omega)).trans (Nat.mod_eq_of_lt (by omega))
  have hok : ringUsable (hostqWritten r v s.sys) r = true :=
    ringUsable_of_bufferless hkind (by rwa [hbase]) (by rwa [hostqWritten_log2]) (by rwa [hostqWritten_log2])
      (by rwa [hbase, hostqWritten_log2])
  rw [afterHostqCfg, ringEnable_usable]
  · simp -implicitDefEqProofs only [Sys.ring_setRing, hbase, hostqWritten_log2, hvec, hcoal, hbuf, hrx, Sys.setRing_counters,
      hostqWritten_counters, bitsOf, and_self]
  · exact hostqWritten_on h
  · exact hok

end

/-- Settles O36: DOORBELL is `doorbell_moves`, and HOSTQ_CFG sets its fields and enables or disables its ring, with one lemma for
each outcome that the statement names. -/
theorem ringsAndDoorbells : Obligations.RingsAndDoorbells := by
  intro s r hs hr
  refine ⟨fun index => ?_, fun v hl => ?_⟩
  · exact (exec_doorbell hs r index).trans (congrArg Host.Outcome.next (doorbell_moves hr index.toNat s))
  · obtain ⟨hframe, hreg, hring, hfield⟩ := afterHostqCfg_frame r.toNat v s
    exact ⟨afterHostqCfg r.toNat v s, exec_hostqEnable_open hs r hr v hl, hframe, hreg, hring, hfield,
      afterHostqCfg_off, afterHostqCfg_badSize, afterHostqCfg_enables⟩

end Sys2Proof.HostInterface
end

section
/-! SUPPORT. IQ messages and delay requests of the fronthaul (R463 to R468), host frames into ERXQ (R451, R456), and the
statement about them, O43. -/

namespace Sys2Proof.HostInterface

open Sys2Proof.Machine

/-! ### IQ messages (R463 to R466) -/

section
variable {port mac : Nat} {msg : List Byte} {u : Nat} {s : State}

/-- Does a message name an uplink stream that the configuration `cfg` of its radio unit serves (R463)? -/
def iqKnown (cfg : Nat) (msg : List Byte) : Prop :=
  (beAt msg 2 2).testBit 7 = true ∧ beAt msg 0 2 / 256 = bitsOf cfg 8 8 ∧ (beAt msg 0 2).testBit 7 = false ∧
    cfg.testBit (16 + beAt msg 0 2 % 32) = true

/-- The slot that a message names, nearest the module's own (R464). -/
def iqSlot (msg : List Byte) (y : Sys) : Int := extendSlot (y.slotOf y.now) (beAt msg 4 4)

/-- What becomes of a well-formed message of a known stream while a job runs. -/
def iqPlaced (msg : List Byte) (s : State) : State :=
  if iqSlot msg s.sys < (s.rx.next : Int) then s.onSys fun y => y.count Cls.FH_LATE
  else if (s.rx.next : Int) + 1 < iqSlot msg s.sys then s.onSys fun y => y.count Cls.FH_EARLY
  else
    let iq := iqPayload (beAt msg 11 1) (beAt msg 12 2) (msg.drop 16)
    keepSamples (iqSlot msg s.sys).toNat (beAt msg 0 2 % 32) (beAt msg 8 3) iq.1
      (s.onSys fun y => y.countN Cls.FH_FORMAT iq.2)

/-- What becomes of a message that names a known stream. -/
def iqOfStream (msg : List Byte) (s : State) : State :=
  if !iqLengthOk (beAt msg 11 1) (beAt msg 12 2) msg.length then s.onSys fun y => y.count Cls.FH_FORMAT
  else if !s.job.active then s
  else iqPlaced msg s

theorem ecpriIqReceive_unknown (hp : port ≤ 3) (hup : (s.net.port port).up = true) (hu : s.sys.ruOf mac = some u)
    (hk : ¬ iqKnown (s.sys.reg (0x040108 + 16 * u)) msg) :
    ecpriIqReceive port mac msg s = { s with sys := s.sys.count Cls.FH_UNKNOWN_PC } := by
  rw [ecpriIqReceive, if_neg (by simp [hup, hp]), hu]
  refine if_pos (Decidable.byContradiction fun hc => hk ?_)
  simp only [Bool.not_eq_true, Bool.or_eq_false_iff, Bool.not_eq_false', decide_eq_false_iff_not, ne_eq,
    Decidable.not_not] at hc
  obtain ⟨⟨⟨he, hunit⟩, hdl⟩, hst⟩ := hc
  exact ⟨he, hunit, hdl, hst⟩

theorem ecpriIqReceive_known (hp : port ≤ 3) (hup : (s.net.port port).up = true) (hu : s.sys.ruOf mac = some u)
    (hk : iqKnown (s.sys.reg (0x040108 + 16 * u)) msg) : ecpriIqReceive port mac msg s = iqOfStream msg s := by
  obtain ⟨he, hunit, hdl, hst⟩ := hk
  rw [ecpriIqReceive, if_neg (by simp [hup, hp]), hu]
  exact if_neg (by simp [he, hunit, hdl, hst])

/-- FORMAT 0 is one to 2,048 samples of four bytes (log entry 160). -/
theorem iqLengthOk_int16 {count len : Nat} (h1 : 1 ≤ count) (h2 : count ≤ 2048) (hl : len = 16 + 4 * count) :
    iqLengthOk 0 count len = true := by simp [iqLengthOk, h1, h2, hl]

theorem iqLengthOk_format {format : Nat} (h : 1 < format) (count len : Nat) : iqLengthOk format count len = false := by
  simp [iqLengthOk, show format ≠ 0 by omega, show format ≠ 1 by omega]

theorem iqOfStream_badFormat (h : iqLengthOk (beAt msg 11 1) (beAt msg 12 2) msg.length = false) :
    iqOfStream msg s = { s with sys := s.sys.count Cls.FH_FORMAT } := by
  rw [iqOfStream, h]; rfl

theorem iqOfStream_active (hl : iqLengthOk (beAt msg 11 1) (beAt msg 12 2) msg.length = true) (ha : s.job.active = true) :
    iqOfStream msg s = iqPlaced msg s := by
  rw [iqOfStream, hl, ha]
  exact (if_neg (by decide)).trans (if_neg (by decide))

theorem iqPlaced_late (h : iqSlot msg s.sys < (s.rx.next : Int)) :
    iqPlaced msg s = { s with sys := s.sys.count Cls.FH_LATE } := by
  rw [iqPlaced, if_pos h]; rfl

theorem iqPlaced_early (h : (s.rx.next : Int) + 1 < iqSlot msg s.sys) :
    iqPlaced msg s = { s with sys := s.sys.count Cls.FH_EARLY } := by
  rw [iqPlaced, if_neg (by omega), if_pos h]; rfl

theorem iqPlaced_kept (h1 : (s.rx.next : Int) ≤ iqSlot msg s.sys) (h2 : iqSlot msg s.sys ≤ s.rx.next + 1) :
    iqPlaced msg s =
      keepSamples (iqSlot msg s.sys).toNat (beAt msg 0 2 % 32) (beAt msg 8 3)
        (iqPayload (beAt msg 11 1) (beAt msg 12 2) (msg.drop 16)).1
        (s.onSys fun y => y.countN Cls.FH_FORMAT (iqPayload (beAt msg 11 1) (beAt msg 12 2) (msg.drop 16)).2) := by
  rw [iqPlaced, if_neg (by omega), if_neg (by omega)]

theorem iqPayload_int16 (count : Nat) (msg : List Byte) :
    iqPayload 0 count (msg.drop 16) = ((List.range count).map fun i =>
      (toSigned 16 (beAt msg (16 + 4 * i) 2), toSigned 16 (beAt msg (18 + 4 * i) 2)), 0) := by
  have hq : ∀ i, 16 + (4 * i + 2) = 18 + 4 * i := fun i => by omega
  simp only [iqPayload, if_true, beAt_drop, hq]

/-- Where every element gives a result, `filterMap` is `map`. -/
theorem filterMap_of_some {α β : Type} {f : α → Option β} {g : α → β} {l : List α} (h : ∀ x ∈ l, f x = some (g x)) :
    l.filterMap f = l.map g := by
  induction l with
  | nil => rfl
  | cons x l ih =>
    rw [List.filterMap_cons_some (h x (List.mem_cons_self ..)), List.map_cons,
      ih fun y hy => h y (List.mem_cons_of_mem _ hy)]

/-- Samples of a stretch of a slot's stream of which nothing has come yet are all kept, and none is a duplicate. -/
theorem keepSamples_new (n st off count : Nat) (f : Nat → Int × Int) (hoff : off + count ≤ s.sys.streamSamples)
    (hnew : ∀ e ∈ mapGet (fun _ => []) (streamKey n st) s.rx.ingest, e.1 < off ∨ off + count ≤ e.1) :
    keepSamples n st off ((List.range count).map f) s = { s with
      rx := { s.rx with
        ingest := mapSet (fun _ => []) (streamKey n st)
          (mapGet (fun _ => []) (streamKey n st) s.rx.ingest ++ (List.range count).map fun i => (off + i, f i)) s.rx.ingest,
        received := natPut s.rx.received (streamKey n st) (natAt s.rx.received (streamKey n st) + count) } } := by
  have hnone : ∀ i < count,
      ((mapGet (fun _ => []) (streamKey n st) s.rx.ingest).any fun o => o.1 == off + i) = false := by
    intro i hi
    rw [List.any_eq_false]
    intro e he
    have := hnew e he
    simp only [beq_iff_eq]
    omega
  have hfresh : (((List.range ((List.range count).map f).length).zip ((List.range count).map f)).filterMap fun e =>
      if s.sys.streamSamples ≤ off + e.1 || (mapGet (fun _ => []) (streamKey n st) s.rx.ingest).any fun o => o.1 == off + e.1
      then none else some (off + e.1, e.2)) = (List.range count).map fun i => (off + i, f i) := by
    have hzip : (List.range count).zip ((List.range count).map f) = (List.range count).map fun i => (i, f i) := by
      simpa using List.zip_map' (f := id) (g := f) (l := List.range count)
    rw [List.length_map, List.length_range, hzip, List.filterMap_map]
    refine filterMap_of_some fun i hi => ?_
    have hi := List.mem_range.mp hi
    simp [hnone i hi, show ¬ s.sys.streamSamples ≤ off + i by omega]
  have hdup : (List.range ((List.range count).map f).length).any (fun j =>
      (mapGet (fun _ => []) (streamKey n st) s.rx.ingest).any fun o => o.1 == off + j) = false := by
    rw [List.any_eq_false]
    intro i hi
    rw [List.length_map, List.length_range, List.mem_range] at hi
    simp [hnone i hi]
  unfold keepSamples
  dsimp only
  rw [hfresh, hdup]
  simp

/-- A FORMAT 0 message for the next slot or the one after it puts its samples, of which none has come yet, into its slot. -/
theorem iqPlaced_int16 (hf : beAt msg 11 1 = 0) (h1 : (s.rx.next : Int) ≤ iqSlot msg s.sys)
    (h2 : iqSlot msg s.sys ≤ s.rx.next + 1) (hoff : beAt msg 8 3 + beAt msg 12 2 ≤ s.sys.streamSamples)
    (hnew : ∀ e ∈ mapGet (fun _ => []) (streamKey (iqSlot msg s.sys).toNat (beAt msg 0 2 % 32)) s.rx.ingest,
      e.1 < beAt msg 8 3 ∨ beAt msg 8 3 + beAt msg 12 2 ≤ e.1) :
    let key := streamKey (iqSlot msg s.sys).toNat (beAt msg 0 2 % 32)
    iqPlaced msg s = { s with
      sys := s.sys.countN Cls.FH_FORMAT 0
      rx := { s.rx with
        ingest := mapSet (fun _ => []) key
          (mapGet (fun _ => []) key s.rx.ingest ++ (List.range (beAt msg 12 2)).map fun i =>
            (beAt msg 8 3 + i, toSigned 16 (beAt msg (16 + 4 * i) 2), toSigned 16 (beAt msg (18 + 4 * i) 2))) s.rx.ingest,
        received := natPut s.rx.received key (natAt s.rx.received key + beAt msg 12 2) } } := by
  intro key
  rw [iqPlaced_kept h1 h2, hf, iqPayload_int16, keepSamples_new]
  · rfl
  · exact hoff
  · exact hnew

end

/-! ### Delay requests (R468) -/

theorem ptpStamp_length (stamp : Nat) : (ptpStamp stamp).length = 10 := by
  simp only [ptpStamp, List.length_append, bytesBE_length]

/-- The first 18 bytes of an untagged eCPRI frame: addresses, type, revision, message type and length (R4, R463). -/
def ecpriHeader (dst src type len : Nat) : List Byte :=
  bytesBE 6 dst ++ (bytesBE 6 src ++ (bytesBE 2 0xAEFE ++ (0x10 :: (bytesBE 1 type ++ bytesBE 2 len))))

theorem ecpriHeader_length (dst src type len : Nat) : (ecpriHeader dst src type len).length = 18 := by
  simp only [ecpriHeader, List.length_append, List.length_cons, bytesBE_length]

theorem ecpriHeader_fields (dst src type len : Nat) (rest : List Byte) :
    let fr := ecpriHeader dst src type len ++ rest
    beAt fr 0 6 = dst % 256 ^ 6 ∧ beAt fr 6 6 = src % 256 ^ 6 ∧ beAt fr 12 2 = 0xAEFE ∧ beAt fr 15 1 = type % 256 ^ 1 := by
  intro fr
  have h6 : (bytesBE 6 dst).length = 6 := bytesBE_length ..
  have h12 : (bytesBE 6 dst ++ bytesBE 6 src).length = 12 := by simp only [List.length_append, bytesBE_length]
  have h15 : (bytesBE 6 dst ++ bytesBE 6 src ++ bytesBE 2 0xAEFE ++ [0x10]).length = 15 := by
    simp only [List.length_append, bytesBE_length, List.length_singleton]
  simp only [fr, ecpriHeader]
  refine ⟨?_, ?_, ?_, ?_⟩
  · simpa only [List.append_assoc, List.nil_append, List.length_nil] using beAt_append (pre := []) rfl 6 dst _
  · simpa only [List.append_assoc] using beAt_append h6 6 src _
  · simpa only [List.append_assoc, Nat.reducePow, Nat.reduceMod] using beAt_append h12 2 0xAEFE _
  · simpa only [List.append_assoc, List.cons_append, List.nil_append] using beAt_append h15 1 type (bytesBE 2 len ++ rest)

/-- An eCPRI message sent without a VLAN tag: header, message and padding. -/
theorem ecpriFrame_untagged {y : Sys} (h : y.fhTag = none) (port mac type : Nat) (msg : List Byte) :
    ∃ pad, y.ecpriFrame port mac type msg = ecpriHeader mac (macOfPort y port) type msg.length ++ (msg ++ pad) := by
  simp only [Sys.ecpriFrame, padFrame, tagBytes, h, ecpriHeader, List.append_assoc, List.append_nil, List.cons_append,
    List.nil_append]
  exact ⟨_, rfl⟩

/-- The Response to a delay request, as it stands on the wire. -/
theorem delayResponse_fields {y : Sys} (h : y.fhTag = none) (port : Nat) (mac : BitVec 48) (id : Byte) (stamp : Nat)
    (rest : List Byte) :
    let fr := y.ecpriFrame port mac.toNat 5 ([id, 1] ++ ptpStamp stamp ++ rest)
    beAt fr 0 6 = mac.toNat ∧ beAt fr 6 6 = macOfPort y port ∧ beAt fr 12 2 = 0xAEFE ∧ beAt fr 15 1 = 5 ∧
      fr.getD 18 0 = id ∧ fr.getD 19 0 = 1 ∧ (fr.drop 20).take 10 = ptpStamp stamp := by
  intro fr
  obtain ⟨pad, hpad⟩ := ecpriFrame_untagged h port mac.toNat 5 ([id, 1] ++ ptpStamp stamp ++ rest)
  obtain ⟨hdr, hh⟩ : ∃ hdr,
    hdr = ecpriHeader mac.toNat (macOfPort y port) 5 ([id, 1] ++ ptpStamp stamp ++ rest).length := ⟨_, rfl⟩
  have hfr : fr = hdr ++ (id :: 1 :: (ptpStamp stamp ++ (rest ++ pad))) := by
    rw [hh, show fr = _ from hpad]
    simp only [List.append_assoc, List.cons_append, List.nil_append]
  have h18 : hdr.length = 18 := hh ▸ ecpriHeader_length ..
  have h20 : (hdr ++ [id, 1]).length = 20 := by rw [List.length_append, h18]; rfl
  obtain ⟨hdst, hsrc, htype, hkind⟩ :=
    ecpriHeader_fields mac.toNat (macOfPort y port) 5 ([id, 1] ++ ptpStamp stamp ++ rest).length
      (id :: 1 :: (ptpStamp stamp ++ (rest ++ pad)))
  rw [← hh, ← hfr] at hdst hsrc htype hkind
  refine ⟨?_, ?_, htype, hkind, ?_, ?_, ?_⟩
  · rw [hdst]; exact Nat.mod_eq_of_lt mac.isLt
  · rw [hsrc]; exact Nat.mod_eq_of_lt (Nat.mod_lt _ (by decide))
  · rw [hfr]; exact getD_append_cons h18 id _
  · rw [hfr, List.append_cons]
    exact getD_append_cons (by rw [List.length_append, h18]; rfl) 1 _
  · have happ : fr = (hdr ++ [id, 1]) ++ (ptpStamp stamp ++ (rest ++ pad)) := by
      rw [hfr, List.append_assoc]; rfl
    rw [happ, List.drop_left' h20, List.take_left' (ptpStamp_length stamp)]

/-- A delay request of a configured radio unit sends one Response with its receive timestamp. -/
theorem ecpriDelayRequest_answered {port mac : Nat} {s : State} (hp : port ≤ 3) (hup : (s.net.port port).up = true)
    (hu : (s.sys.ruOf mac).isSome = true) (id : Byte) :
    ecpriDelayRequest port mac id s = { s with
      sys := { s.sys with
        sent := s.sys.sent ++ [.frame port
          (s.sys.ecpriFrame port mac 5 ([id, 1] ++ ptpStamp (s.sys.portStamp port 0) ++ List.replicate 8 0))] } } := by
  rw [ecpriDelayRequest, if_neg]
  · rfl
  · simp [hup, hp, Option.isSome_iff_ne_none.mp hu]

/-! ### Received host frames (R451, R456) -/

/-- The record of a received host frame on ERXQ (R451). -/
def erxqRecord (h : HostRing) (port len stamp gen : Nat) : Record :=
  mkRecord [(0, 1, h.phase.toNat), (1, 1, port), (2, 2, h.seqno.toNat), (4, 2, len), (6, 10, stamp),
    (16, 8, h.bufBase + h.modPos * 2 ^ h.rxLog2), (24, 1, gen)]

section
variable {port : Nat} {frame : List Byte} {s : State}

theorem deliverErxq_disabled (h : (s.sys.ring 17).enabled = false) :
    deliverErxq port frame s = { s with sys := s.sys.count Cls.ETH_RX_DROP } := by
  simp only [deliverErxq, h, Bool.false_and, Bool.not_false, Bool.true_or, Bool.false_eq_true, if_false, if_true]
  rfl

theorem deliverErxq_tooLong (h : (s.sys.ring 17).enabled = true) (hn : 2 ^ (s.sys.ring 17).rxLog2 < frame.length) :
    deliverErxq port frame s = { s with sys := s.sys.count Cls.ETH_RX_TOOLONG } := by
  simp only [deliverErxq, h, hn, decide_true, Bool.and_self, if_true]
  rfl

theorem deliverErxq_full (hn : frame.length ≤ 2 ^ (s.sys.ring 17).rxLog2) (hf : (s.sys.ring 17).free = 0) :
    deliverErxq port frame s = { s with sys := s.sys.count Cls.ETH_RX_DROP } := by
  simp only [deliverErxq, hf, Nat.not_lt.mpr hn, decide_false, decide_true, Bool.and_false, Bool.or_true, Bool.false_eq_true,
    if_false, if_true]
  rfl

/-- Host memory once a frame stands in its buffer and its record in the next slot of ERXQ. -/
def erxqWritten (port : Nat) (frame : List Byte) (s : State) : Sys :=
  let h := s.sys.ring 17
  ((s.sys.pokeN (hostBase + (h.bufBase + h.modPos * 2 ^ h.rxLog2)) frame).pokeN (h.slotAddr h.modPos)
    (natToBytes 32 (erxqRecord h port frame.length (s.sys.portStamp port 0) s.time.stepGen.toNat).toNat))

/-- A frame that fits takes the buffer and the slot at the module's position. -/
theorem deliverErxq_taken (h : (s.sys.ring 17).enabled = true) (hn : frame.length ≤ 2 ^ (s.sys.ring 17).rxLog2)
    (hf : 0 < (s.sys.ring 17).free) :
    deliverErxq port frame s = { s with
      sys := ((erxqWritten port frame s).setRing 17
        { (s.sys.ring 17).advance 1 with seqno := (s.sys.ring 17).seqno + 1 }).signalRing 17 false } := by
  rw [deliverErxq, if_neg (by simp [h, hn]), if_neg (by simp [h, Nat.ne_of_gt hf])]
  rfl

end

theorem portStamp_lt (y : Sys) (port lo : Nat) : y.portStamp port lo < 2 ^ 80 := by
  rw [Sys.portStamp, ofSigned]; omega

/-- The record as a sum of its fields. -/
theorem erxqRecord_toNat (h : HostRing) {port len stamp gen : Nat} (hp : port < 256) (hs : stamp < 2 ^ 80) (hg : gen < 256) :
    (erxqRecord h port len stamp gen).toNat = h.phase.toNat + port * 2 ^ 8 + h.seqno.toNat * 2 ^ 16 + len % 2 ^ 16 * 2 ^ 32 +
      stamp * 2 ^ 48 + (h.bufBase + h.modPos * 2 ^ h.rxLog2) % 2 ^ 64 * 2 ^ 128 + gen * 2 ^ 192 := by
  have hb := Bool.toNat_lt h.phase
  have hq := h.seqno.isLt
  rw [erxqRecord, mkRecord, BitVec.toNat_ofNat]
  simp -implicitDefEqProofs only [List.foldl_cons, List.foldl_nil]
  generalize h.bufBase + h.modPos * 2 ^ h.rxLog2 = buf
  omega

/-- What the host finds in the record's slot. -/
theorem erxqWritten_fields (frame : List Byte) (s : State) {port : Nat} (hp : port < 256) :
    let h := s.sys.ring 17
    let slot := h.slotAddr h.modPos
    let y := erxqWritten port frame s
    y.peek (slot + 1) = BitVec.ofNat 8 port ∧ y.peekNat (slot + 4) 2 = frame.length % 2 ^ 16 ∧
      y.peekNat (slot + 6) 10 = s.sys.portStamp port 0 ∧
      y.peekNat (slot + 16) 8 = (h.bufBase + h.modPos * 2 ^ h.rxLog2) % 2 ^ 64 := by
  intro h slot y
  have hphase := Bool.toNat_lt h.phase
  have hseq := h.seqno.isLt
  have hstamp := portStamp_lt s.sys port 0
  have hrec := erxqRecord_toNat h (len := frame.length) hp hstamp s.time.stepGen.isLt
  obtain ⟨v, hv⟩ : ∃ v, v = (erxqRecord h port frame.length (s.sys.portStamp port 0) s.time.stepGen.toNat).toNat := ⟨_, rfl⟩
  obtain ⟨z, hz⟩ : ∃ z, z = s.sys.pokeN (hostBase + (h.bufBase + h.modPos * 2 ^ h.rxLog2)) frame := ⟨_, rfl⟩
  have hy : y = z.pokeN slot (natToBytes 32 v) := by rw [hv, hz]; rfl
  rw [← hv] at hrec
  have hgen := s.time.stepGen.isLt
  generalize h.bufBase + h.modPos * 2 ^ h.rxLog2 = buf at *
  generalize s.sys.portStamp port 0 = stamp at *
  rw [hy, peek_number (by decide), peekNat_number 2 (by decide), peekNat_number 10 (by decide), peekNat_number 8 (by decide)]
  refine ⟨BitVec.eq_of_toNat_eq ?_, ?_, ?_, ?_⟩
  · rw [BitVec.toNat_ofNat, BitVec.toNat_ofNat]; omega
  all_goals omega

/-- Outside the record's slot the frame lies in its buffer, and nothing else has changed. -/
theorem erxqWritten_outside (port : Nat) (frame : List Byte) (s : State) (a : Nat) :
    let h := s.sys.ring 17
    let slot := h.slotAddr h.modPos
    let buf := h.bufBase + h.modPos * 2 ^ h.rxLog2
    a < slot ∨ slot + 32 ≤ a →
      (erxqWritten port frame s).peek a = if hostBase + buf ≤ a ∧ a < hostBase + buf + frame.length
        then frame.getD (a - (hostBase + buf)) 0 else s.sys.peek a := by
  intro h slot buf ha
  rw [erxqWritten, Sys.peek_pokeN, natToBytes_length, if_neg (show ¬ (slot ≤ a ∧ a < slot + 32) by omega), Sys.peek_pokeN]

/-- A frame that ERXQ takes: its record and its bytes stand in host memory, and the ring has moved on by one slot. -/
theorem erxqTaken_effect {port : Nat} (hp : port < 256) (frame : List Byte) (s : State) :
    let h := s.sys.ring 17
    let slot := h.slotAddr h.modPos
    let buf := h.bufBase + h.modPos * 2 ^ h.rxLog2
    let y := ((erxqWritten port frame s).setRing 17 { h.advance 1 with seqno := h.seqno + 1 }).signalRing 17 false
    y.counters = s.sys.counters ∧ (y.ring 17).modPos = (h.modPos + 1) % h.size ∧ (y.ring 17).seqno = h.seqno + 1 ∧
      y.peek (slot + 1) = BitVec.ofNat 8 port ∧ y.peekNat (slot + 4) 2 = frame.length % 2 ^ 16 ∧
      y.peekNat (slot + 6) 10 = s.sys.portStamp port 0 ∧ y.peekNat (slot + 16) 8 = buf % 2 ^ 64 ∧
      ∀ a, a < slot ∨ slot + 32 ≤ a →
        y.peek a = if hostBase + buf ≤ a ∧ a < hostBase + buf + frame.length then frame.getD (a - (hostBase + buf)) 0
          else s.sys.peek a := by
  intro h slot buf y
  have hmem : y.mem = (erxqWritten port frame s).mem := by rw [Sys.signalRing_mem, Sys.setRing_mem]
  obtain ⟨since, hring⟩ := ring_signalRing_self
    ((erxqWritten port frame s).setRing 17 { h.advance 1 with seqno := h.seqno + 1 }) 17 false
  rw [Sys.ring_setRing] at hring
  obtain ⟨hport, hlen, hstamp, hbuf⟩ := erxqWritten_fields frame s hp
  refine ⟨?_, congrArg HostRing.modPos hring, congrArg HostRing.seqno hring, (peek_congr_mem hmem _).trans hport,
    (peekNat_congr_mem hmem _ _).trans hlen, (peekNat_congr_mem hmem _ _).trans hstamp,
    (peekNat_congr_mem hmem _ _).trans hbuf, fun a ha => (peek_congr_mem hmem a).trans (erxqWritten_outside port frame s a ha)⟩
  rw [Sys.signalRing_counters, Sys.setRing_counters, erxqWritten, Sys.pokeN_counters, Sys.pokeN_counters]

section
variable {port : Nat} {frame : List Byte} {s : State}

theorem hostFrameReceive_badFcs : hostFrameReceive port false frame s = s := by rw [hostFrameReceive, if_pos (by simp)]

theorem hostFrameReceive_filtered (hup : (s.net.port port).up = true) (hc : s.sys.classify port (untag frame) = .filtered) :
    hostFrameReceive port true frame s = { s with sys := s.sys.count Cls.ETH_RX_FILTERED } := by
  rw [hostFrameReceive, if_neg (by simp [hup])]
  simp only [hc]
  rfl

theorem hostFrameReceive_host (hup : (s.net.port port).up = true) (hc : s.sys.classify port (untag frame) = .host) :
    hostFrameReceive port true frame s = deliverErxq port (untag frame) s := by
  rw [hostFrameReceive, if_neg (by simp [hup])]
  simp only [hc]

end

/-! ### The commands -/

theorem exec_ecpriIqReceive {s : State} (hs : s.up = true) (port : BitVec 3) (mac : BitVec 48) (msg : List Byte) :
    exec (.ecpriIqReceive port mac msg) s = .next (ecpriIqReceive port.toNat mac.toNat msg s) :=
  congrArg Host.Outcome.next (whenUp_of hs)

theorem exec_ecpriDelayRequest {s : State} (hs : s.up = true) (port : BitVec 3) (mac : BitVec 48) (id : Byte) :
    exec (.ecpriDelayRequest port mac id) s = .next (ecpriDelayRequest port.toNat mac.toNat id s) :=
  congrArg Host.Outcome.next (whenUp_of hs)

theorem exec_hostFrameReceive {s : State} (hs : s.up = true) (port : BitVec 3) (good : Bool) (frame : List Byte) :
    exec (.hostFrameReceive port good frame) s = .next (hostFrameReceive port.toNat good frame s) :=
  congrArg Host.Outcome.next (whenUp_of hs)

/-- Settles O43: an IQ message is unknown, malformed, late, early or kept in its slot; a delay request sends one Response; a frame
for the host meets a disabled, full or open ERXQ, each case by the lemma of its name. -/
theorem fronthaulAndHostReceive : Obligations.FronthaulAndHostReceive := by
  intro s port hs hup
  refine ⟨?_, ?_, ?_⟩
  · intro mac msg u hp hu cfg pc n count off run known
    have hrecv {t : State} (h : ecpriIqReceive port.toNat mac.toNat msg s = t) :
        exec (.ecpriIqReceive port mac msg) s = .next t := (exec_ecpriIqReceive hs port mac msg).trans (congrArg _ h)
    refine ⟨fun hk => hrecv (ecpriIqReceive_unknown hp hup hu hk), fun hk hf => hrecv ?_, fun hk hf h1 h2 hlen ha => ?_⟩
    · rw [ecpriIqReceive_known hp hup hu hk, iqOfStream_badFormat (iqLengthOk_format hf _ _)]
    have hplaced : ecpriIqReceive port.toNat mac.toNat msg s = iqPlaced msg s := by
      rw [ecpriIqReceive_known hp hup hu hk, iqOfStream_active (by rw [hf]; exact iqLengthOk_int16 h1 h2 hlen) ha]
    refine ⟨fun h => hrecv ?_, fun h => hrecv ?_, ?_⟩
    · rw [hplaced, iqPlaced_late h]
    · rw [hplaced, iqPlaced_early h]
    · intro hn1 hn2 hoff key hnew
      have hkept := hplaced.trans (iqPlaced_int16 hf hn1 hn2 hoff hnew)
      exact ⟨_, hrecv hkept, rfl, mapGet_mapSet_self, natAt_natPut_self, rfl, rfl⟩
  · intro mac id hp hu htag
    refine ⟨_, (exec_ecpriDelayRequest hs port mac id).trans (congrArg _ (ecpriDelayRequest_answered hp hup hu id)), ?_⟩
    exact delayResponse_fields htag port.toNat mac id (s.sys.portStamp port.toNat 0) _
  · intro frame bs h buf run
    have hrecv {good : Bool} {t : State} (h : hostFrameReceive port.toNat good frame s = t) :
        exec (.hostFrameReceive port good frame) s = .next t :=
      (exec_hostFrameReceive hs port good frame).trans (congrArg _ h)
    refine ⟨hrecv hostFrameReceive_badFcs, fun hc => hrecv (hostFrameReceive_filtered hup hc), fun hc => ?_⟩
    have hdeliver := hostFrameReceive_host hup hc
    refine ⟨fun he => hrecv ?_, fun he hn => hrecv ?_, fun _ hn hf => hrecv ?_, fun he hn hf => ?_⟩
    · rw [hdeliver, deliverErxq_disabled he]
    · rw [hdeliver, deliverErxq_tooLong he hn]
    · rw [hdeliver, deliverErxq_full hn hf]
    · exact ⟨_, hrecv (hdeliver.trans (deliverErxq_taken he hn hf)), rfl, erxqTaken_effect (by omega) bs s⟩

end Sys2Proof.HostInterface
end
